-- ==== Sys2Proof/Word.lean ====
section
/-! DEFINITION. The word types of PTB: every quantity of the block is an unsigned integer of a
stated width, arithmetic modulo its width (00_scope.md R19, 49_common_laws.md R150). -/

namespace Sys2Proof

/-- A host-interface register or a command word (20_memory.md R70). -/
abbrev Word := BitVec 32

/-- A `u16` operand: a duration, a baud rate, a delay (30_encoding.md R102). -/
abbrev Half := BitVec 16

/-- A byte of BUF, of a one-wire transfer or of the Manchester codec. -/
abbrev Byte := BitVec 8

end Sys2Proof
end

