-- ==== Sys2Proof/Config.lean ====
section
/-! DEFINITION. What an implementation of PTB fixes: the parameters of 00_scope.md R11 to R17 (all
OPEN in the spec, 93_implementation_defined.md U13), the profiles the test vectors name, and the
values nothing constrains. `Config` is a field of `State` that no step changes, so a statement over
every state is a statement over every choice of the parameters. -/

namespace Sys2Proof

/-- The parameters of 00_scope.md R11 to R17, each under the spec's own name. -/
structure Config where
  /-- `F_CLK` in hertz (R11). -/
  fClk : Nat
  /-- `TMR_W`, the width of every timer's count and period (R12). -/
  tmrW : Nat
  /-- `PS_SET`, the prescale divisors, ascending (R12). -/
  psSet : List Nat
  /-- `N_EVT`, the number of EVT slots (R12). -/
  nEvt : Nat
  /-- `DLY_US_OVH`, cycles (R13). -/
  dlyUsOvh : Nat
  /-- `DLY_MS_OVH`, cycles (R13). -/
  dlyMsOvh : Nat
  /-- `TimeA` to `TimeJ`, microseconds (R14, 41_onewire.md R160). -/
  timeA : Nat
  timeB : Nat
  timeC : Nat
  timeD : Nat
  timeE : Nat
  timeF : Nat
  timeG : Nat
  timeH : Nat
  timeI : Nat
  timeJ : Nat
  /-- `OW_GAP_CYC`, cycles (R14). -/
  owGapCyc : Nat
  /-- `MinCount` to `MaxLongCount`, RF ticks (R15). -/
  minCount : Nat
  maxCount : Nat
  minLongCount : Nat
  maxLongCount : Nat
  /-- `SYNC_PULSE_MIN` and `SYNC_PULSE_MAX` (R15). -/
  syncPulseMin : Nat
  syncPulseMax : Nat
  /-- `DECOUPLING_MASK` (R15). -/
  decouplingMask : Byte
  /-- `RF_BUF_CAP`, bytes (R15). -/
  rfBufCap : Nat
  /-- `ISR_CYC[TICK]`, `ISR_CYC[RF]` and `ISR_CYC[EVT[k]]`, cycles (R16). -/
  isrTick : Nat
  isrRf : Nat
  isrEvt : List Nat
  /-- `NPINS` (R17). -/
  npins : Nat
deriving DecidableEq, Repr

/-- Profile T1 with the RF profile E1 (00_scope.md R11 to R17, 95_test_vectors.md section 0): the
values the spec's vectors use unless they say otherwise. The one-wire times, `PS_SET` and the mask are
the spec's own 'from general knowledge' defaults (log 18, PRESUMED). -/
def Config.profileT1 : Config where
  fClk := 1000000
  tmrW := 16
  psSet := [1, 2, 4, 8]
  nEvt := 4
  dlyUsOvh := 0
  dlyMsOvh := 0
  timeA := 6
  timeB := 64
  timeC := 60
  timeD := 10
  timeE := 9
  timeF := 55
  timeG := 0
  timeH := 480
  timeI := 70
  timeJ := 410
  owGapCyc := 0
  minCount := 1
  maxCount := 1
  minLongCount := 2
  maxLongCount := 2
  syncPulseMin := 2
  syncPulseMax := 8
  decouplingMask := 0xCA#8
  rfBufCap := 255
  isrTick := 0
  isrRf := 0
  isrEvt := [0, 0, 0, 0]
  npins := 32

/-- Profile T12: T1 with a 12 MHz clock (95_test_vectors.md section 0). -/
def Config.profileT12 : Config := { Config.profileT1 with fClk := 12000000 }

/-- FREE VALUE (log 2). The levels the environment presents on the pins in clock cycle `n` where the
state's list of inputs does not give them: `any value` (93_implementation_defined.md U8). It has no
body, so nothing can be proved of it. -/
opaque Config.freePins : Nat → BitVec 32

/-- FREE VALUE (log 12). The period register a timer gets when the wanted number of cycles `C` is below
every divisor that is tried, a case 10_state.md R31 and 44_event_dispatcher.md R262 say does not
occur and so give no value for. -/
opaque Config.freePeriod : Nat → Nat

end Sys2Proof
end

