-- ==== Sys2Proof/Machine/State.lean ====
section
/-! DEFINITION. The state of PTB (10_state.md R20): every register, field and hidden bit the spec
names, as plain data; the reasons a step can stop; and the state after reset (R50). -/

namespace Sys2Proof.Machine

/-- The receive modes of the RF receiver (10_state.md R35). The codes 5 to 7 do not occur
(93_implementation_defined.md U5), so the type has five values. -/
inductive RfMode where
  | pre | sync | data | msg | idle
deriving DecidableEq, Repr

/-- The interrupt sources (60_exceptions.md R290). -/
inductive IntSource where
  | tick
  | rf
  | evt (k : Nat)
deriving DecidableEq, Repr

/-- One timer instance (10_state.md R30). `tmr` and `pr` hold values below `2 ^ TMR_W`. -/
structure Timer where
  on : Bool
  ps : Half
  psc : Half
  tmr : Half
  pr : Half
deriving DecidableEq, Repr

/-- The sequencer (10_state.md R24); `cmd` is what register CMD reads. -/
structure Seq where
  busy : Bool
  cmd : Word
  fresh : Bool
  phase : Word
  cnt : Word
  mask : Byte
  acc : Byte
deriving DecidableEq, Repr

/-- The stored bits of STATUS (10_state.md R22). BUSY, RF_COMPLETE and ISR_ACTIVE are live and are
computed where the register is read. -/
structure Status where
  ill : Bool
  ovr : Bool
  argErr : Bool
  manErrLo : Bool
  manErrHi : Bool
  manSentLo : Bool
  manSentHi : Bool
  rfClamp : Bool
  tickLost : Bool
  rfLost : Bool
  evtLost : Bool
deriving DecidableEq, Repr

/-- The stored bits of INTCON (10_state.md R23). Bit `k` of `ieEvt` and `ifEvt` is slot `k`'s; the bits
of slots that do not exist are 0. -/
structure IntCon where
  gie : Bool
  ieTick : Bool
  ieRf : Bool
  ieEvt : BitVec 8
  ifTick : Bool
  ifRf : Bool
  ifEvt : BitVec 8
deriving DecidableEq, Repr

/-- The RF433 receiver record (10_state.md R35). -/
structure RfRecord where
  pin : Byte
  sample : Bool
  lastSample : Bool
  count : Half
  syncCount : Byte
  mode : RfMode
  manBits : Half
  numMB : BitVec 5
  curByte : Byte
  maxBytes : Byte
  capBytes : Byte
  lenpfx : Bool
deriving DecidableEq, Repr

/-- A slot of the EVT binding table (10_state.md R40). -/
structure EvtSlot where
  used : Bool
  cb : Word
  count : Word
  limit : Word
  t : Timer
deriving DecidableEq, Repr

/-- The callback ports `cb_valid`, `cb_slot` and `cb_token` (44_event_dispatcher.md R267), as driven in
the cycle that has just run. -/
structure CallbackPort where
  valid : Bool
  slot : BitVec 3
  token : Word
deriving DecidableEq, Repr

/-- The host's access in a cycle: none, a read of a word index, or a write of a value to one
(20_memory.md R71). The port has a 7-bit word index and no byte lanes, so no other access can be
expressed (R73). -/
inductive HostAccess where
  | idle
  | read (widx : BitVec 7)
  | write (widx : BitVec 7) (v : Word)
deriving DecidableEq, Repr

/-- The inputs of one clock cycle (70_reset_and_hazards.md R330): reset, the host's access, and the level
the environment would put on each pin that the block does not drive. -/
structure Input where
  rst : Bool
  host : HostAccess
  pins : BitVec 32
deriving DecidableEq, Repr

/-- The whole state. The fields `cfg`, `cycle`, `inputs` and `pinIn` are the MODEL's own (logs 1 to 3);
`readData` and `callback` are outputs of the cycle held for an observer (log 4); every other field is
the spec's. Bit `p` of a pin field is pin `p`. -/
structure State where
  /-- The parameters; no step changes them (log 1). -/
  cfg : Config
  /-- Clock cycles run so far (log 2). -/
  cycle : Nat
  /-- What the environment presents in the coming cycles, the next cycle first (log 2). -/
  inputs : List Input
  /-- CBARG (10_state.md R21). -/
  cbarg : Word
  /-- RESULT (R21). -/
  result : Word
  /-- The stored bits of STATUS (R22). -/
  status : Status
  /-- INTCON (R23). -/
  intcon : IntCon
  /-- SEQ (R24). -/
  seq : Seq
  /-- `pin[p].dir`, 1 = OUT (R26). -/
  pinDir : BitVec 32
  /-- `pin[p].lat` (R26). -/
  pinLat : BitVec 32
  /-- `pin_q[p]`, the level of the previous cycle (R45). -/
  pinQ : BitVec 32
  /-- `pin_in[p]` of the cycle being run (R26, log 3). -/
  pinIn : BitVec 32
  /-- `tick` (R27). -/
  tick : Word
  /-- The TICK timer (R30, R32). -/
  tt : Timer
  /-- The RF timer (R30, R32). -/
  rt : Timer
  /-- The RF receiver record (R35). -/
  rf : RfRecord
  /-- BUF (R37): the bytes that have been stored, addresses strictly rising. -/
  buf : List Host.Cell
  /-- The EVT binding table, slot 0 first (R40). -/
  evt : List EvtSlot
  /-- `isr_busy` (R45). -/
  isrBusy : Nat
  /-- The value the host's read returned in the last cycle, if it read (20_memory.md R71, log 4). -/
  readData : Option Word
  /-- The callback ports of the last cycle (44_event_dispatcher.md R267, log 4). -/
  callback : CallbackPort
deriving DecidableEq, Repr

/-- Why a step stops the machine. PTB itself has no trap (60_exceptions.md R280). -/
inductive Fault where
  /-- `RF_GETMSG` or `RF_RDBUF` reads `buf[i]`, which nothing has stored since reset: the named error
  `BufUnwritten(i)` of 93_implementation_defined.md U6. Safe: the hardware returns some byte (log 7). -/
  | bufUnwritten (i : Nat)
  /-- An access of BUF at an address that does not exist, `i >= RF_BUF_CAP` (20_memory.md R70). Raised by
  a BUF read or by the RF handler's store, in states no run reaches. Safe (log 8). -/
  | bufOutOfRange (i : Nat)
deriving DecidableEq, Repr

/-- Why the model gives a step no meaning. -/
inductive Refusal where
  /-- An arm of `exec` whose command has no meaning yet; raised by `exec` alone. Safe. -/
  | notModelled (mnemonic : String)
  /-- SEQ is busy with a word that is no command, so no micro-program exists for it. Raised by the step
  in states no run reaches, since only a legal word is accepted (30_encoding.md R103, R110). Safe (log 9). -/
  | notACommand (w : Word)
deriving DecidableEq, Repr

/-- An outcome of a step or of a command's cycle. -/
abbrev Out := Host.Outcome State Fault Refusal

/-- A timer after reset (10_state.md R50). -/
def Timer.reset : Timer := ⟨false, 0, 0, 0, 0⟩

/-- A free EVT slot (10_state.md R50: every slot free). -/
def EvtSlot.reset : EvtSlot := ⟨false, 0, 0, 0, Timer.reset⟩

/-- The callback ports in a cycle without a callback (44_event_dispatcher.md R267). -/
def CallbackPort.quiet : CallbackPort := ⟨false, 0, 0⟩

/-- The state after reset with given parameters (10_state.md R50, 70_reset_and_hazards.md R320, R321). BUF
lists nothing: a byte nothing has stored holds no value (U6). -/
def State.resetWith (c : Config) : State where
  cfg := c
  cycle := 0
  inputs := []
  cbarg := 0
  result := 0
  status := ⟨false, false, false, false, false, false, false, false, false, false, false⟩
  intcon := ⟨false, false, false, 0, false, false, 0⟩
  seq := ⟨false, 0, false, 0, 0, 0, 0⟩
  pinDir := 0
  pinLat := 0
  pinQ := 0
  pinIn := 0
  tick := 0
  tt := Timer.reset
  rt := Timer.reset
  rf := ⟨0, false, false, 0, 0, .idle, 0, 0, 0, 0, 0, false⟩
  buf := []
  evt := List.replicate c.nEvt EvtSlot.reset
  isrBusy := 0
  readData := none
  callback := CallbackPort.quiet

/-- The machine right after reset, with the parameters the spec's test vectors use (log 1). -/
def State.reset : State := State.resetWith Config.profileT1

/-! One update per field that some step writes; Sys2Proof/Laws/State.lean says what each leaves. -/

namespace State

/-- Write `cycle`. -/
def setCycle (s : State) (v : Nat) : State := { s with cycle := v }
/-- Write `inputs`. -/
def setInputs (s : State) (v : List Input) : State := { s with inputs := v }
/-- Write CBARG. -/
def setCbarg (s : State) (v : Word) : State := { s with cbarg := v }
/-- Write RESULT. -/
def setResult (s : State) (v : Word) : State := { s with result := v }
/-- Write the stored bits of STATUS. -/
def setStatus (s : State) (v : Status) : State := { s with status := v }
/-- Write INTCON. -/
def setIntcon (s : State) (v : IntCon) : State := { s with intcon := v }
/-- Write SEQ. -/
def setSeq (s : State) (v : Seq) : State := { s with seq := v }
/-- Write the pin directions. -/
def setPinDir (s : State) (v : BitVec 32) : State := { s with pinDir := v }
/-- Write the pin latches. -/
def setPinLat (s : State) (v : BitVec 32) : State := { s with pinLat := v }
/-- Write `pin_q`. -/
def setPinQ (s : State) (v : BitVec 32) : State := { s with pinQ := v }
/-- Write the pad levels of the cycle. -/
def setPinIn (s : State) (v : BitVec 32) : State := { s with pinIn := v }
/-- Write `tick`. -/
def setTick (s : State) (v : Word) : State := { s with tick := v }
/-- Write the TICK timer. -/
def setTt (s : State) (v : Timer) : State := { s with tt := v }
/-- Write the RF timer. -/
def setRt (s : State) (v : Timer) : State := { s with rt := v }
/-- Write the RF receiver record. -/
def setRf (s : State) (v : RfRecord) : State := { s with rf := v }
/-- Write BUF. -/
def setBuf (s : State) (v : List Host.Cell) : State := { s with buf := v }
/-- Write the EVT binding table. -/
def setEvt (s : State) (v : List EvtSlot) : State := { s with evt := v }
/-- Write `isr_busy`. -/
def setIsrBusy (s : State) (v : Nat) : State := { s with isrBusy := v }
/-- Write the read data of the cycle. -/
def setReadData (s : State) (v : Option Word) : State := { s with readData := v }
/-- Write the callback ports of the cycle. -/
def setCallback (s : State) (v : CallbackPort) : State := { s with callback := v }

end State

end Sys2Proof.Machine
end

