-- ==== Sys2Proof/Machine/Flags.lean ====
section
/-! DEFINITION. The flags: raising and clearing the bits of STATUS (10_state.md R22, 60_exceptions.md
R281), the Manchester status (R193, R195), the bits of INTCON (R23), and the two registers as words. -/

namespace Sys2Proof.Machine

/-- `v` with bit `k` made `b`. -/
def setBit {n : Nat} (v : BitVec n) (k : Nat) (b : Bool) : BitVec n :=
  if b then v ||| (1#n <<< k) else v &&& ~~~(1#n <<< k)

/-- `raise ILL` (30_encoding.md R110). -/
def raiseIll (s : State) : State := s.setStatus { s.status with ill := true }

/-- `raise OVR` (30_encoding.md R104). -/
def raiseOvr (s : State) : State := s.setStatus { s.status with ovr := true }

/-- `raise ARGERR` (30_encoding.md R112). -/
def raiseArgErr (s : State) : State := s.setStatus { s.status with argErr := true }

/-- `raise RF_CLAMP` (43_rf433.md R227). -/
def raiseRfClamp (s : State) : State := s.setStatus { s.status with rfClamp := true }

/-- The four MAN bits, which describe the last `MAN_NIBBLER` or `MAN_DECODE` only
(42_manchester.md R193, R195, R200). -/
def setManFlags (s : State) (errLo errHi sentLo sentHi : Bool) : State :=
  s.setStatus { s.status with
    manErrLo := errLo, manErrHi := errHi, manSentLo := sentLo, manSentHi := sentHi }

/-- STATUS as the host reads it (10_state.md R22): the stored bits and the three live ones; bits not
listed read 0. -/
def statusWord (s : State) : Word :=
  0#18 ++ BitVec.ofBool (decide (0 < s.isrBusy)) ++ BitVec.ofBool s.status.evtLost ++
    BitVec.ofBool s.status.rfLost ++ BitVec.ofBool s.status.tickLost ++ BitVec.ofBool s.status.rfClamp ++
    BitVec.ofBool (s.rf.mode == .msg) ++ BitVec.ofBool s.status.manSentHi ++
    BitVec.ofBool s.status.manSentLo ++ BitVec.ofBool s.status.manErrHi ++
    BitVec.ofBool s.status.manErrLo ++ BitVec.ofBool s.status.argErr ++ BitVec.ofBool s.status.ovr ++
    BitVec.ofBool s.status.ill ++ BitVec.ofBool s.seq.busy

/-- A host write to STATUS: a sticky bit whose written bit is 1 is cleared; every other bit ignores the
write (10_state.md R22, 60_exceptions.md R284). -/
def writeStatus (v : Word) (s : State) : State :=
  s.setStatus { s.status with
    ill := s.status.ill && !v.getLsbD 1
    ovr := s.status.ovr && !v.getLsbD 2
    argErr := s.status.argErr && !v.getLsbD 3
    rfClamp := s.status.rfClamp && !v.getLsbD 9
    tickLost := s.status.tickLost && !v.getLsbD 10
    rfLost := s.status.rfLost && !v.getLsbD 11
    evtLost := s.status.evtLost && !v.getLsbD 12 }

/-- A 1 for every EVT slot that exists (10_state.md R23: `k < N_EVT`). -/
def evtMask (c : Config) : BitVec 8 := BitVec.ofNat 8 (2 ^ c.nEvt - 1)

/-- INTCON as the host reads it (10_state.md R23); bits not listed read 0. -/
def intconWord (s : State) : Word :=
  (s.intcon.ifEvt &&& evtMask s.cfg) ++ 0#6 ++ BitVec.ofBool s.intcon.ifRf ++
    BitVec.ofBool s.intcon.ifTick ++ (s.intcon.ieEvt &&& evtMask s.cfg) ++ 0#5 ++
    BitVec.ofBool s.intcon.ieRf ++ BitVec.ofBool s.intcon.ieTick ++ BitVec.ofBool s.intcon.gie

/-- A host write to INTCON: GIE and the IE bits store, a pending flag whose written bit is 1 is cleared,
and bits not listed ignore the write (10_state.md R23). -/
def writeIntcon (v : Word) (s : State) : State :=
  s.setIntcon
    { gie := v.getLsbD 0
      ieTick := v.getLsbD 1
      ieRf := v.getLsbD 2
      ieEvt := v.extractLsb' 8 8 &&& evtMask s.cfg
      ifTick := s.intcon.ifTick && !v.getLsbD 16
      ifRf := s.intcon.ifRf && !v.getLsbD 17
      ifEvt := s.intcon.ifEvt &&& ~~~(v.extractLsb' 24 8) }

/-- `IF_TICK <- 0; IE_TICK <- 1` (40_tick_delay.md R131). -/
def armTickSource (s : State) : State :=
  s.setIntcon { s.intcon with ifTick := false, ieTick := true }

/-- `IF_RF <- 0; IE_RF <- 1` (43_rf433.md R211). -/
def armRfSource (s : State) : State :=
  s.setIntcon { s.intcon with ifRf := false, ieRf := true }

/-- `IF_EVT[k] <- 0; IE_EVT[k] <- on` (44_event_dispatcher.md R261, R265). -/
def setEvtSource (k : Nat) (on : Bool) (s : State) : State :=
  s.setIntcon { s.intcon with
    ifEvt := setBit s.intcon.ifEvt k false, ieEvt := setBit s.intcon.ieEvt k on }

/-- `rf.mode` as RFSTAT reads it (10_state.md R35, R38). -/
def modeCode : RfMode → BitVec 3
  | .pre => 0
  | .sync => 1
  | .data => 2
  | .msg => 3
  | .idle => 4

end Sys2Proof.Machine
end

