-- ==== Sys2Proof/Machine/Ops.lean ====
section
/-! DEFINITION. The named operations the commands and the handlers share: the receive buffer, the pins,
the timers, the EVT slots, how SEQ advances a micro-program, and how INT takes an interrupt and
returns from it. -/

namespace Sys2Proof.Machine

/-! ## The receive buffer BUF (20_memory.md R70, 10_state.md R37) -/

/-- The canonical form of BUF: addresses strictly rising. An unlisted address holds no value (log 7), so
no entry repeats what an unlisted address reads as. -/
abbrev Memory.wf (m : List Host.Cell) : Prop := m.Pairwise (fun p q => p.1 < q.1)

/-- The byte at an address, or none where nothing has been stored. -/
def cellAt : List Host.Cell → Nat → Option Byte
  | [], _ => none
  | (a, b) :: rest, x => if a = x then some b else cellAt rest x

/-- Store a byte, keeping the addresses strictly rising. -/
def cellStore : List Host.Cell → Nat → Byte → List Host.Cell
  | [], x, v => [(x, v)]
  | (a, b) :: rest, x, v =>
    if x < a then (x, v) :: (a, b) :: rest
    else if x = a then (x, v) :: rest
    else (a, b) :: cellStore rest x v

/-- One byte of BUF as it stands, without the checks of an access. -/
def bufByte (s : State) (i : Nat) : Option Byte := cellAt s.buf i

/-- `MemRead(BUF, i, 1)`: a byte nothing has stored is the named error `BufUnwritten(i)`
(93_implementation_defined.md U6). -/
def bufLoad (s : State) (i : Nat) : Except Fault Byte :=
  if i < s.cfg.rfBufCap then
    match bufByte s i with
    | some b => .ok b
    | none => .error (.bufUnwritten i)
  else .error (.bufOutOfRange i)

/-- `MemWrite(BUF, i, 1, v)`. -/
def bufStore (i : Nat) (v : Byte) (s : State) : Except Fault State :=
  if i < s.cfg.rfBufCap then .ok (s.setBuf (cellStore s.buf i v)) else .error (.bufOutOfRange i)

/-! ## The pins (10_state.md R26, 00_scope.md R19, 41_onewire.md R162) -/

/-- A 1 for every pin that exists (00_scope.md R17: `p < NPINS`). -/
def pinMask (c : Config) : BitVec 32 := BitVec.ofNat 32 (2 ^ c.npins - 1)

/-- `PinDriveLow(p)`: latch 0 and direction OUT in the same cycle. -/
def pinDriveLow (p : Nat) (s : State) : State :=
  (s.setPinLat (setBit s.pinLat p false)).setPinDir (setBit s.pinDir p true)

/-- `PinRelease(p)`: direction IN, latch unchanged. -/
def pinRelease (p : Nat) (s : State) : State := s.setPinDir (setBit s.pinDir p false)

/-- `PinSample(p)`: the level on the pad in this cycle. -/
def pinSample (p : Nat) (s : State) : Bool := s.pinIn.getLsbD p

/-- The levels on the pads in a cycle: what the environment presents, with a pin that the block drives low
at the start of the cycle reading 0 (R26, 70_reset_and_hazards.md R330), and no pin above `NPINS`. -/
def padLevels (s : State) (presented : BitVec 32) : BitVec 32 :=
  presented &&& ~~~(s.pinDir &&& ~~~s.pinLat) &&& pinMask s.cfg

/-- The pad outputs `pin_oe[p]`, functions of the state at the end of the cycle (R26, R330). -/
def pinOe (s : State) : BitVec 32 := s.pinDir &&& pinMask s.cfg

/-- The pad outputs `pin_out[p]` (R26, R330). -/
def pinOut (s : State) : BitVec 32 := s.pinLat &&& pinMask s.cfg

/-! ## The timers (10_state.md R30) -/

/-- `TimerStep(T)`: the timer after one clock cycle, and whether its event occurs. -/
def timerStep (w : Nat) (t : Timer) : Timer × Bool :=
  if t.on then
    if t.ps.toNat ≤ t.psc.toNat + 1 then
      if t.tmr = t.pr then ({ t with psc := 0, tmr := 0 }, true)
      else ({ t with psc := 0, tmr := BitVec.ofNat 16 ((t.tmr.toNat + 1) % 2 ^ w) }, false)
    else ({ t with psc := t.psc + 1 }, false)
  else (t, false)

/-- A timer just started by an init command: `psc` and `tmr` 0, running. -/
def startTimer (ps pr : Nat) : Timer := ⟨true, BitVec.ofNat 16 ps, 0, 0, BitVec.ofNat 16 pr⟩

/-- `event(tt)` (R30): an event that finds IF_TICK already 1 raises TICK_LOST. -/
def tickEvent (fired : Bool) (s : State) : State :=
  (s.setStatus { s.status with tickLost := s.status.tickLost || (fired && s.intcon.ifTick) }).setIntcon
    { s.intcon with ifTick := s.intcon.ifTick || fired }

/-- `event(rt)` (R30): an event that finds IF_RF already 1 raises RF_LOST. -/
def rfEvent (fired : Bool) (s : State) : State :=
  (s.setStatus { s.status with rfLost := s.status.rfLost || (fired && s.intcon.ifRf) }).setIntcon
    { s.intcon with ifRf := s.intcon.ifRf || fired }

/-- Bit `k` is 1 where slot `k`'s timer has its event in this cycle. -/
def evtFired (w : Nat) : List EvtSlot → Nat → BitVec 8
  | [], _ => 0
  | e :: rest, k => setBit (evtFired w rest (k + 1)) k (timerStep w e.t).2

/-- `event(evt[k].t)` for every slot whose bit is 1 (R30): one that finds IF_EVT[k] already 1 raises
EVT_LOST (10_state.md R22, 'any k'). -/
def evtEvents (fired : BitVec 8) (s : State) : State :=
  (s.setStatus { s.status with evtLost := s.status.evtLost || (s.intcon.ifEvt &&& fired != 0) }).setIntcon
    { s.intcon with ifEvt := s.intcon.ifEvt ||| fired }

/-- Step 2 of the cycle (70_reset_and_hazards.md R330): every timer steps once, independently. -/
def timersStep (s : State) : State :=
  let w := s.cfg.tmrW
  let s1 := tickEvent (timerStep w s.tt).2 (s.setTt (timerStep w s.tt).1)
  let s2 := rfEvent (timerStep w s1.rt).2 (s1.setRt (timerStep w s1.rt).1)
  evtEvents (evtFired w s2.evt 0) (s2.setEvt (s2.evt.map (fun e => { e with t := (timerStep w e.t).1 })))

/-! ## The EVT slots (10_state.md R40) -/

/-- Slot `k` of the binding table; a slot that does not exist reads as a free one. -/
def slotAt (s : State) (k : Nat) : EvtSlot := s.evt.getD k EvtSlot.reset

/-- Write slot `k` of the binding table; a slot that does not exist is not written. -/
def setSlot (k : Nat) (e : EvtSlot) (s : State) : State := s.setEvt (s.evt.set k e)

/-! ## How SEQ advances (10_state.md R25) -/

/-- A micro-program (R25): `len` phases, the action and the dwell of each, and what completion writes. A
dwell is read in the state its action leaves. -/
structure MicroProgram where
  len : Nat
  action : Nat → State → Except Fault State
  dwell : Nat → State → Nat
  finish : State → State

/-- Completion (R25a): the command's result is written and SEQ becomes idle, in the same cycle. -/
def completeCommand (P : MicroProgram) (s : State) : State :=
  (P.finish s).setSeq { (P.finish s).seq with busy := false }

/-- Enter the phase `seq.phase`, with `r` phases left in the program: perform its action, set its dwell, and
fall through to the next phase where the dwell is 0 (R25). A phase of dwell `d > 0` spends the first of
its `d` cycles here. -/
def enterPhases (P : MicroProgram) : Nat → State → Except Fault State
  | 0, s => .ok (completeCommand P s)
  | r + 1, s =>
    match P.action s.seq.phase.toNat s with
    | .error f => .error f
    | .ok s' =>
      let d := P.dwell s.seq.phase.toNat s'
      if d = 0 then enterPhases P r (s'.setSeq { s'.seq with cnt := 0, phase := s'.seq.phase + 1 })
      else .ok (s'.setSeq { s'.seq with cnt := BitVec.ofNat 32 (d - 1) })

/-- SEQ's step of one cycle in which it is not held (R25). -/
def seqStep (P : MicroProgram) (s : State) : Except Fault State :=
  if s.seq.busy then
    if s.seq.fresh then
      enterPhases P (P.len - s.seq.phase.toNat) (s.setSeq { s.seq with fresh := false })
    else if s.seq.cnt = 0 then
      enterPhases P (P.len - (s.seq.phase + 1).toNat) (s.setSeq { s.seq with phase := s.seq.phase + 1 })
    else .ok (s.setSeq { s.seq with cnt := s.seq.cnt - 1 })
  else .ok s

/-- What a command's cycle answers. -/
def toOut : Except Fault State → Out
  | .ok s => .next s
  | .error f => .fault f

/-- One cycle of SEQ on a command with the micro-program `P`. -/
def runProgram (P : MicroProgram) (s : State) : Out := toOut (seqStep P s)

/-- The micro-program of an immediate command, the single phase `(action, 0)` (40_tick_delay.md): the action
writes RESULT itself. -/
def immediate (action : State → Except Fault State) : MicroProgram where
  len := 1
  action := fun _ s => action s
  dwell := fun _ _ => 0
  finish := fun s => s

/-- The micro-program of a refused command (30_encoding.md R112): it completes in its first phase with
ARGERR and the result `r`, and nothing else changes. -/
def refusedProgram (r : Word) : MicroProgram :=
  immediate (fun s => .ok ((raiseArgErr s).setResult r))

/-- Acceptance of a command word (R25, 30_encoding.md R103). -/
def acceptCommand (w : Word) (s : State) : State :=
  s.setSeq { s.seq with busy := true, cmd := w, fresh := true, phase := 0, cnt := 0 }

/-! ## Taking an interrupt, and the return from it (60_exceptions.md R295) -/

/-- Clear the pending flag of a source. -/
def clearPending : IntSource → State → State
  | .tick, s => s.setIntcon { s.intcon with ifTick := false }
  | .rf, s => s.setIntcon { s.intcon with ifRf := false }
  | .evt k, s => s.setIntcon { s.intcon with ifEvt := setBit s.intcon.ifEvt k false }

/-- `ISR_CYC[s]` (00_scope.md R16; 0 where the parameter gives none). -/
def isrCycles (c : Config) : IntSource → Nat
  | .tick => c.isrTick
  | .rf => c.isrRf
  | .evt k => c.isrEvt.getD k 0

/-- Serve source `src`: its pending flag is cleared, its handler makes its one atomic state change, and
`isr_busy` is set to its cost. Entry saves nothing and changes no mode or mask (R295). -/
def takeInterrupt (handler : State → Except Fault State) (src : IntSource) (s : State) : Except Fault State :=
  match handler (clearPending src s) with
  | .error f => .error f
  | .ok s' => .ok (s'.setIsrBusy (isrCycles s.cfg src))

/-- `isr_busy` counts down once a cycle; the return from a handler is its reaching 0 (R295). -/
def isrCountdown (s : State) : State := s.setIsrBusy (s.isrBusy - 1)

/-- Source `src` is ready (60_exceptions.md R291). -/
def isReady (s : State) : IntSource → Bool
  | .tick => s.intcon.gie && s.intcon.ieTick && s.intcon.ifTick
  | .rf => s.intcon.gie && s.intcon.ieRf && s.intcon.ifRf
  | .evt k => s.intcon.gie && s.intcon.ieEvt.getLsbD k && s.intcon.ifEvt.getLsbD k

/-- The sources in the order of their priority (60_exceptions.md R290, R292). -/
def sources (c : Config) : List IntSource := .tick :: .rf :: (List.range c.nEvt).map .evt

/-- The ready source of highest priority, if any is ready (R292). -/
def readySource (s : State) : Option IntSource := (sources s.cfg).find? (isReady s)

end Sys2Proof.Machine
end

