-- ==== Sys2Proof/Machine/Operands.lean ====
section
/-! DEFINITION. The operands: which values a command can use (30_encoding.md R112), and the clock cycles,
prescalers and periods the operands and the parameters come to (10_state.md R31, 40_tick_delay.md R140,
44_event_dispatcher.md R262). -/

namespace Sys2Proof.Machine

/-- The result of a refused command (30_encoding.md R112). -/
def argRefused : Word := 0xFFFFFFFF#32

/-- `EVT_OK` (44_event_dispatcher.md R264). -/
def evtOk : Word := 0#32

/-- `EVT_ERR_USED` (44_event_dispatcher.md R264). -/
def evtErrUsed : Word := 1#32

/-- `EVT_ERR_ARG` (44_event_dispatcher.md R264). -/
def evtErrArg : Word := 2#32

/-- The pin operand names a pin (00_scope.md R17). -/
def pinUsable (c : Config) (pin : Byte) : Bool := decide (pin.toNat < c.npins)

/-- The slot operand names an EVT slot (30_encoding.md R112). -/
def slotUsable (c : Config) (slot : BitVec 4) : Bool := decide (slot.toNat < c.nEvt)

/-- The byte count of `RF_BEGIN_BYTES` is usable (43_rf433.md R214). -/
def maxBytesUsable (c : Config) (m : Byte) : Bool := decide (m ≠ 0 ∧ m.toNat ≤ c.rfBufCap)

/-- `CYC_PER_US` (00_scope.md R11). -/
def cycPerUs (c : Config) : Nat := c.fClk / 1000000

/-- `cyc(n)`, the clock cycles of a wait of `n` microseconds (40_tick_delay.md R140). -/
def cyc (c : Config) (n : Nat) : Nat := c.dlyUsOvh + n * cycPerUs c

/-- `DLYUS_MAX`, the original software's 'maximum safe input length' in microseconds (00_scope.md R13). No rule
of PTB uses it: the delay is `cyc(n)` for every `n`, and a claim that must also hold of the original
takes `n <= DLYUS_MAX` as a premise (40_tick_delay.md R144, 93_implementation_defined.md U3). -/
def dlyUsMax : Nat := 40000

/-- What `TimerFit` returns (10_state.md R31). -/
structure PeriodFit where
  fits : Bool
  ps : Nat
  pr : Nat
deriving DecidableEq, Repr

/-- The first divisor of the list whose quotient fits the timer (10_state.md R31). -/
def firstFit (w C : Nat) : List Nat → Option (Nat × Nat)
  | [] => none
  | ps :: rest => if 1 ≤ C / ps ∧ C / ps ≤ 2 ^ w then some (ps, C / ps - 1) else firstFit w C rest

/-- The last element of `PS_SET`. -/
def psMax (c : Config) : Nat := c.psSet.getLastD 1

/-- `(q - 1) mod 2^TMR_W`. The spec says `q >= 1` where it uses it; where `q` is 0 it states no value, and
the period is free (log 12). -/
def truncatedPeriod (c : Config) (C q : Nat) : Nat :=
  if q = 0 then Config.freePeriod C % 2 ^ c.tmrW else (q - 1) % 2 ^ c.tmrW

/-- `TimerFit(C)` (10_state.md R31). -/
def timerFit (c : Config) (C : Nat) : PeriodFit :=
  match firstFit c.tmrW C c.psSet with
  | some (ps, pr) => ⟨true, ps, pr⟩
  | none => ⟨false, psMax c, truncatedPeriod c C (C / psMax c)⟩

/-- The smallest `K` from `k` on, among `fuel` candidates, with `C mod (ps * K) = 0`
(44_event_dispatcher.md R262). -/
def firstExact (C ps : Nat) : Nat → Nat → Option Nat
  | 0, _ => none
  | fuel + 1, k => if C % (ps * k) = 0 then some k else firstExact C ps fuel (k + 1)

/-- What `EvtFit` returns (44_event_dispatcher.md R262). -/
structure EvtPeriod where
  ps : Nat
  pr : Nat
  k : Nat
deriving DecidableEq, Repr

/-- The `K` of `EvtFit` where one unit does not fit the timer (44_event_dispatcher.md R262). -/
def evtDivision (c : Config) (C : Nat) : Nat :=
  let d := psMax c * 2 ^ c.tmrW
  let kmin := (C + d - 1) / d
  (firstExact C (psMax c) (C / psMax c + 1 - kmin) kmin).getD kmin

/-- `EvtFit(C)` (44_event_dispatcher.md R262). -/
def evtFit (c : Config) (C : Nat) : EvtPeriod :=
  let f := timerFit c C
  if f.fits then ⟨f.ps, f.pr, 1⟩
  else
    let k := evtDivision c C
    ⟨psMax c, truncatedPeriod c C (C / (psMax c * k)), k⟩

/-- `Cunit(u)`, the clock cycles of one unit: 0 µs, 1 ms, 2 s (30_encoding.md R102,
44_event_dispatcher.md R262). Unit 3 is refused before it is used. -/
def unitCycles (c : Config) (u : BitVec 2) : Nat :=
  if u = 0 then cycPerUs c else if u = 1 then c.fClk / 1000 else c.fClk

/-- The clock cycles of an RF tick, `C` of `RF_INIT` (43_rf433.md R210, R211). -/
def rfTickCycles (c : Config) (baud : Half) : Nat := c.fClk / (2 * baud.toNat)

/-- `RF_INIT`'s operands are usable: the pin exists, the baud rate is not 0, and the period is positive and
fits the timer (43_rf433.md R211). -/
def rfInitUsable (c : Config) (pin : Byte) (baud : Half) : Bool :=
  pinUsable c pin && decide (baud ≠ 0) && decide (rfTickCycles c baud ≠ 0) &&
    (timerFit c (rfTickCycles c baud)).fits

end Sys2Proof.Machine
end

