-- ==== Sys2Proof/Machine/Delay.lean ====
section
/-! DEFINITION. Unit DLY: `DELAYUS` and `DELAYMS` (40_tick_delay.md R140 to R144). -/

namespace Sys2Proof.Machine

/-- The micro-program of `DELAYUS` (R141): one wait of `cyc(n)` cycles. -/
def delayUsProgram (c : Config) (n : Half) : MicroProgram where
  len := 1
  action := fun _ s => .ok s
  dwell := fun _ _ => cyc c n.toNat
  finish := fun s => s.setResult 0

/-- `DELAYUS` (R141). -/
def execDelayUs (n : Half) (s : State) : Out := runProgram (delayUsProgram s.cfg n) s

/-- The micro-program of `DELAYMS` (R142): `n` times the pair of waits `DLY_MS_OVH`, `cyc(1000)`. -/
def delayMsProgram (c : Config) (n : Half) : MicroProgram where
  len := 2 * n.toNat
  action := fun _ s => .ok s
  dwell := fun k _ => if k % 2 = 0 then c.dlyMsOvh else cyc c 1000
  finish := fun s => s.setResult 0

/-- `DELAYMS` (R142). -/
def execDelayMs (n : Half) (s : State) : Out := runProgram (delayMsProgram s.cfg n) s

end Sys2Proof.Machine
end

