-- ==== Sys2Proof/Machine/Evt.lean ====
section
/-! DEFINITION. Unit EVT: the event dispatcher's two commands and its interrupt handler
(44_event_dispatcher.md R260 to R270). -/

namespace Sys2Proof.Machine

/-- `evt[k].limit = d * K` modulo 2^32 (R263). -/
def evtLimit (c : Config) (u : BitVec 2) (d : Half) : Word :=
  BitVec.ofNat 32 (d.toNat * (evtFit c (unitCycles c u)).k)

/-- The slot a successful `EVT_ONTIMER` leaves (R261): the token is CBARG as it is now. -/
def boundSlot (s : State) (u : BitVec 2) (d : Half) : EvtSlot :=
  let f := evtFit s.cfg (unitCycles s.cfg u)
  { used := true, cb := s.cbarg, count := 0, limit := evtLimit s.cfg u d, t := startTimer f.ps f.pr }

/-- The action of `EVT_ONTIMER` on a slot and a unit in range (R261): a slot already bound changes nothing
but the returned status. -/
def evtOnTimerAction (k : Nat) (u : BitVec 2) (d : Half) (s : State) : State :=
  if (slotAt s k).used then s.setResult evtErrUsed
  else (setEvtSource k true (setSlot k (boundSlot s u d) s)).setResult evtOk

/-- `EVT_ONTIMER` (R261). -/
def execEvtOnTimer (slot : BitVec 4) (unit : BitVec 2) (delay : Half) (s : State) : Out :=
  runProgram
    (if slotUsable s.cfg slot && unit != 3 then
      immediate (fun s => .ok (evtOnTimerAction slot.toNat unit delay s))
     else refusedProgram evtErrArg) s

/-- A released slot (R265): free, its timer stopped, its count 0; the rest keeps its value. -/
def releasedSlot (e : EvtSlot) : EvtSlot :=
  { e with used := false, count := 0, t := { e.t with on := false } }

/-- The action of `EVT_RELEASE` on a slot that exists (R265): a pending EVT tick is discarded. -/
def evtReleaseAction (k : Nat) (s : State) : State :=
  (setEvtSource k false (setSlot k (releasedSlot (slotAt s k)) s)).setResult evtOk

/-- `EVT_RELEASE` (R265). -/
def execEvtRelease (slot : BitVec 4) (s : State) : Out :=
  runProgram
    (if slotUsable s.cfg slot then immediate (fun s => .ok (evtReleaseAction slot.toNat s))
     else refusedProgram evtErrArg) s

/-- `emit callback(k, token)` (R267): the ports of this cycle. -/
def emitCallback (k : Nat) (token : Word) (s : State) : State :=
  s.setCallback ⟨true, BitVec.ofNat 3 k, token⟩

/-- `EVT_Handler(k)` (R266): the count advances; where it reaches the limit the callback is emitted and the
count restarts. -/
def evtHandler (k : Nat) (s : State) : State :=
  let e := slotAt s k
  let n := e.count + 1
  if e.limit.toNat ≤ n.toNat then emitCallback k e.cb (setSlot k { e with count := 0 } s)
  else setSlot k { e with count := n } s

end Sys2Proof.Machine
end

