-- ==== Sys2Proof/Machine/Manchester.lean ====
section
/-! DEFINITION. Unit MAN: the combinational Manchester codec and its three commands (42_manchester.md
R190 to R200). -/

namespace Sys2Proof.Machine

/-- One pass of the encoder (R191): `r` more bits of `c`, least significant first, into `acc`. Answers the
coded byte and what is left of `c`. -/
def encodePass : Nat → Byte → Byte → Byte × Byte
  | 0, c, acc => (acc, c)
  | r + 1, c, acc =>
    encodePass r (c >>> 1) ((acc >>> 2) ||| (if c.getLsbD 0 then 0b01000000#8 else 0b10000000#8))

/-- `out[0]`, the coded low nibble (R191, pass 0). -/
def manOut0 (b : Byte) : Byte := (encodePass 4 b 0).1

/-- `out[1]`, the coded high nibble (R191, pass 1). -/
def manOut1 (b : Byte) : Byte := (encodePass 4 (encodePass 4 b 0).2 0).1

/-- The groups `k` to `k + r - 1` of a coded byte, decoded into `n`; a group that is neither 01 nor 10 ends
the decode at once (R193). -/
def nibGroups (c : Byte) : Nat → Nat → Byte → Byte
  | 0, _, n => n
  | r + 1, k, n =>
    if c.extractLsb' (2 * k) 2 = 0b01#2 then nibGroups c r (k + 1) (n ||| (1#8 <<< k))
    else if c.extractLsb' (2 * k) 2 = 0b10#2 then nibGroups c r (k + 1) n
    else 0xFF#8

/-- `Nib(c)` (R193): the sentinel is tested before anything else. -/
def nib (c : Byte) : Byte := if c = 0xF0#8 then 0xF0#8 else nibGroups c 4 0 0

/-- `Dec(in0, in1)` (R195): the shift is in 8 bits, so the high nibble result's own high half is lost. -/
def dec (in0 in1 : Byte) : Byte := (nib in1 <<< 4) ||| nib in0

/-- `MAN_ENCODE` (R191): `out[1]` in bits 15:8, `out[0]` in bits 7:0. -/
def execManEncode (byte : Byte) (s : State) : Out :=
  runProgram (immediate (fun s => .ok (s.setResult (0#16 ++ manOut1 byte ++ manOut0 byte)))) s

/-- The action of `MAN_NIBBLER` (R193). -/
def manNibblerAction (c : Byte) (s : State) : State :=
  (setManFlags s (nib c == 0xFF#8) false (c == 0xF0#8) false).setResult ((nib c).setWidth 32)

/-- `MAN_NIBBLER` (R193). -/
def execManNibbler (byte : Byte) (s : State) : Out :=
  runProgram (immediate (fun s => .ok (manNibblerAction byte s))) s

/-- The action of `MAN_DECODE` (R195). -/
def manDecodeAction (in1 in0 : Byte) (s : State) : State :=
  (setManFlags s (nib in0 == 0xFF#8) (nib in1 == 0xFF#8) (in0 == 0xF0#8) (in1 == 0xF0#8)).setResult
    ((dec in0 in1).setWidth 32)

/-- `MAN_DECODE` (R195). -/
def execManDecode (in1 in0 : Byte) (s : State) : Out :=
  runProgram (immediate (fun s => .ok (manDecodeAction in1 in0 s))) s

end Sys2Proof.Machine
end

