-- ==== Sys2Proof/Machine/OneWire.lean ====
section
/-! DEFINITION. Unit OW: the five one-wire commands as micro-programs of pin actions and waits
(41_onewire.md R160 to R178). -/

namespace Sys2Proof.Machine

/-- `seq.acc <- b`. -/
def setAcc (b : Byte) (s : State) : State := s.setSeq { s.seq with acc := b }

/-- `seq.mask <- b`. -/
def setMask (b : Byte) (s : State) : State := s.setSeq { s.seq with mask := b }

/-- A sampled bit as a byte. -/
def bitByte (b : Bool) : Byte := if b then 1 else 0

/-- `zext_32(seq.acc[0])`, the result of the commands that sample one bit. -/
def accBit (s : State) : Word := if s.seq.acc.getLsbD 0 then 1 else 0

/-- The start of slot `i` of a byte operation: the mask is 0x01 and is shifted up once a slot (R170, R172). -/
def nextMask (i : Nat) (s : State) : State := setMask (if i = 0 then 1 else s.seq.mask <<< 1) s

/-- The idle cycles after slot `i` of a byte operation: none after the eighth (R170, R172). -/
def slotGap (c : Config) (i : Nat) : Nat := if i < 7 then c.owGapCyc else 0

/-- Refusal common to the five commands (R163): a pin that does not exist. -/
def onPin (c : Config) (pin : Byte) (P : MicroProgram) : MicroProgram :=
  if pinUsable c pin then P else refusedProgram argRefused

/-- The micro-program of `OW_RESET` (R165). -/
def owResetProgram (c : Config) (p : Nat) : MicroProgram where
  len := 4
  action := fun k s =>
    if k = 1 then .ok (pinDriveLow p s)
    else if k = 2 then .ok (pinRelease p s)
    else if k = 3 then .ok (setAcc (bitByte (pinSample p s)) s)
    else .ok s
  dwell := fun k _ =>
    if k = 0 then cyc c c.timeG
    else if k = 1 then cyc c c.timeH
    else if k = 2 then cyc c c.timeI
    else cyc c c.timeJ
  finish := fun s => s.setResult (accBit s)

/-- `OW_RESET` (R165). -/
def execOwReset (pin : Byte) (s : State) : Out :=
  runProgram (onPin s.cfg pin (owResetProgram s.cfg pin.toNat)) s

/-- The low time of a write slot (R166). -/
def writeLow (c : Config) (b : Bool) : Nat := if b then cyc c c.timeA else cyc c c.timeC

/-- The rest of a write slot (R166). -/
def writeRest (c : Config) (b : Bool) : Nat := if b then cyc c c.timeB else cyc c c.timeD

/-- The micro-program of `OW_WRITEBIT` (R166). -/
def owWriteBitProgram (c : Config) (p : Nat) (b : Bool) : MicroProgram where
  len := 2
  action := fun k s => if k = 0 then .ok (pinDriveLow p s) else .ok (pinRelease p s)
  dwell := fun k _ => if k = 0 then writeLow c b else writeRest c b
  finish := fun s => s.setResult 0

/-- `OW_WRITEBIT` (R166). -/
def execOwWriteBit (pin : Byte) (bit : BitVec 1) (s : State) : Out :=
  runProgram (onPin s.cfg pin (owWriteBitProgram s.cfg pin.toNat (bit == 1))) s

/-- The micro-program of `OW_READBIT` (R167). -/
def owReadBitProgram (c : Config) (p : Nat) : MicroProgram where
  len := 3
  action := fun k s =>
    if k = 0 then .ok (pinDriveLow p s)
    else if k = 1 then .ok (pinRelease p s)
    else .ok (setAcc (bitByte (pinSample p s)) s)
  dwell := fun k _ =>
    if k = 0 then cyc c c.timeA else if k = 1 then cyc c c.timeE else cyc c c.timeF
  finish := fun s => s.setResult (accBit s)

/-- `OW_READBIT` (R167). -/
def execOwReadBit (pin : Byte) (s : State) : Out :=
  runProgram (onPin s.cfg pin (owReadBitProgram s.cfg pin.toNat)) s

/-- The bit the current slot of `OW_WRITEBYTE` sends, `(v & seq.mask) != 0` (R170). -/
def slotBit (v : Byte) (s : State) : Bool := v &&& s.seq.mask != 0

/-- The micro-program of `OW_WRITEBYTE` (R170): phases `3i`, `3i + 1`, `3i + 2` for slot `i`. -/
def owWriteByteProgram (c : Config) (p : Nat) (v : Byte) : MicroProgram where
  len := 24
  action := fun k s =>
    if k % 3 = 0 then .ok (pinDriveLow p (nextMask (k / 3) s))
    else if k % 3 = 1 then .ok (pinRelease p s)
    else .ok s
  dwell := fun k s =>
    if k % 3 = 0 then writeLow c (slotBit v s)
    else if k % 3 = 1 then writeRest c (slotBit v s)
    else slotGap c (k / 3)
  finish := fun s => s.setResult 0

/-- `OW_WRITEBYTE` (R170). -/
def execOwWriteByte (pin : Byte) (byte : Byte) (s : State) : Out :=
  runProgram (onPin s.cfg pin (owWriteByteProgram s.cfg pin.toNat byte)) s

/-- The start of slot `i` of `OW_READBYTE` (R172): the first slot also clears the byte being assembled. -/
def startReadSlot (i : Nat) (s : State) : State :=
  if i = 0 then setAcc 0 (nextMask i s) else nextMask i s

/-- The sample of a slot of `OW_READBYTE` (R172): a level of 1 sets the mask's bit of the byte. -/
def sampleIntoAcc (p : Nat) (s : State) : State :=
  if pinSample p s then setAcc (s.seq.acc ||| s.seq.mask) s else s

/-- The micro-program of `OW_READBYTE` (R172): phases `4i` to `4i + 3` for slot `i`. -/
def owReadByteProgram (c : Config) (p : Nat) : MicroProgram where
  len := 32
  action := fun k s =>
    if k % 4 = 0 then .ok (pinDriveLow p (startReadSlot (k / 4) s))
    else if k % 4 = 1 then .ok (pinRelease p s)
    else if k % 4 = 2 then .ok (sampleIntoAcc p s)
    else .ok s
  dwell := fun k _ =>
    if k % 4 = 0 then cyc c c.timeA
    else if k % 4 = 1 then cyc c c.timeE
    else if k % 4 = 2 then cyc c c.timeF
    else slotGap c (k / 4)
  finish := fun s => s.setResult (s.seq.acc.setWidth 32)

/-- `OW_READBYTE` (R172). -/
def execOwReadByte (pin : Byte) (s : State) : Out :=
  runProgram (onPin s.cfg pin (owReadByteProgram s.cfg pin.toNat)) s

end Sys2Proof.Machine
end

