-- ==== Sys2Proof/Machine/Rf.lean ====
section
/-! DEFINITION. Unit RF: the seven commands of the RF433 receiver and its interrupt handler
(43_rf433.md R210 to R238). -/

namespace Sys2Proof.Machine

/-! ## The handler -/

/-- The class of a pulse (R221). -/
inductive PulseClass where
  | short | long | bad
deriving DecidableEq, Repr

/-- `Classify(c)`, by the formula of R221. DESIGN CHOICE, unsafe (log 21): with `MaxLongCount = 65535` the formula makes
the saturated count 0xFFFF Long, where the prose of R221 and R230 calls it Bad. -/
def classify (c : Config) (n : Nat) : PulseClass :=
  if c.minCount ≤ n ∧ n ≤ c.maxCount then .short
  else if c.minLongCount ≤ n ∧ n ≤ c.maxLongCount then .long
  else .bad

/-- `RfDecode16(w)` (R226, 92_eei_decisions.md D23). -/
def rfDecode16 (w : Half) : Byte := dec (w.extractLsb' 0 8) (w.extractLsb' 8 8)

/-- `L = max(1, min(v, rf.capBytes))` (R227). -/
def learnedLength (v cap : Byte) : Byte := BitVec.ofNat 8 (max 1 (min v.toNat cap.toNat))

/-- `LearnLength(v)` (R227): a length that is clamped raises RF_CLAMP. -/
def learnLength (v : Byte) (s : State) : State :=
  let l := learnedLength v s.rf.capBytes
  let s1 := if l ≠ v then raiseRfClamp s else s
  s1.setRf { s1.rf with maxBytes := l }

/-- The byte `EmitByte` stores: the decoded word with the whitening undone (R226). -/
def emittedByte (s : State) : Byte := rfDecode16 s.rf.manBits ^^^ s.cfg.decouplingMask

/-- `EmitByte` (R226): the store is bounds-checked by `rf.capBytes`. -/
def emitByte (s : State) : Except Fault State :=
  let v := emittedByte s
  match (if s.rf.curByte.toNat < s.rf.capBytes.toNat then bufStore s.rf.curByte.toNat v s else .ok s) with
  | .error f => .error f
  | .ok s1 =>
    let s2 := s1.setRf { s1.rf with curByte := s1.rf.curByte + 1 }
    .ok (if s2.rf.lenpfx ∧ s2.rf.curByte = 1 then learnLength v s2 else s2)

/-- `AddManBit(b)` (R225): shift the bit in, and after the sixteenth emit the byte and restart the count. -/
def addManBit (b : Bool) (s : State) : Except Fault State :=
  let s1 := s.setRf { s.rf with
    manBits := (s.rf.manBits <<< 1) ||| (if b then 1 else 0), numMB := s.rf.numMB + 1 }
  if s1.rf.numMB = 16 then
    match emitByte s1 with
    | .error f => .error f
    | .ok s2 => .ok (s2.setRf { s2.rf with numMB := 0 })
  else .ok s1

/-- Set `rf.mode`. -/
def setMode (m : RfMode) (s : State) : State := s.setRf { s.rf with mode := m }

/-- Mode PRE (R222). -/
def rfPre (transition : Bool) (s : State) : State :=
  if transition && s.rf.sample then
    s.setRf { s.rf with count := 0, syncCount := 0, mode := .sync }
  else s

/-- A Short transition in SYNC (R223). -/
def rfSyncShort (s : State) : State :=
  let n := s.rf.syncCount + 1
  s.setRf { s.rf with
    syncCount := n
    mode := if 2 * s.cfg.syncPulseMax < n.toNat then .pre else s.rf.mode
    count := 0 }

/-- A Long transition in SYNC (R223): a long low after enough regular transitions is the lock. -/
def rfSyncLong (s : State) : State :=
  if !s.rf.lastSample && decide (2 * s.cfg.syncPulseMin ≤ s.rf.syncCount.toNat) then
    s.setRf { s.rf with mode := .data, manBits := 0, numMB := 0, curByte := 0, count := 0 }
  else setMode .pre s

/-- Mode SYNC (R223). -/
def rfSync (transition : Bool) (s : State) : State :=
  if transition then
    match classify s.cfg s.rf.count.toNat with
    | .bad => setMode .pre s
    | .short => rfSyncShort s
    | .long => rfSyncLong s
  else s

/-- The end test and the add of mode DATA (R224), after the flush. -/
def rfDataEdge (s : State) : Except Fault State :=
  if s.rf.sample ∧ s.rf.curByte = s.rf.maxBytes then .ok (setMode .msg s)
  else
    match addManBit s.rf.sample s with
    | .error f => .error f
    | .ok s1 => .ok (s1.setRf { s1.rf with count := 0 })

/-- Mode DATA (R224): flush, end test, add, in that order. -/
def rfData (transition : Bool) (s : State) : Except Fault State :=
  if transition then
    match classify s.cfg s.rf.count.toNat with
    | .bad => .ok (setMode .pre s)
    | .short => rfDataEdge s
    | .long =>
      match addManBit s.rf.lastSample s with
      | .error f => .error f
      | .ok s1 => rfDataEdge s1
  else .ok s

/-- The saturating count and the debounced sample of an RF tick (R219, R220): the sample is accepted only
if the levels of this cycle and of the one before agree. -/
def rfSample (s : State) : State :=
  let p := s.rf.pin.toNat
  let s1 := s.pinQ.getLsbD p
  let s2 := s.pinIn.getLsbD p
  s.setRf { s.rf with
    count := if s.rf.count = 0xFFFF#16 then 0xFFFF#16 else s.rf.count + 1
    sample := if s1 = s2 then s2 else s.rf.sample }

/-- `rf.last_sample <- rf.sample`, the end of an RF tick (R219). -/
def rfRecordSample (s : State) : State := s.setRf { s.rf with lastSample := s.rf.sample }

/-- The part of an RF tick that the mode selects (R219): the mode tested is the one at entry. -/
def rfModeStep (m : RfMode) (transition : Bool) (s : State) : Except Fault State :=
  match m with
  | .pre => .ok (rfPre transition s)
  | .sync => .ok (rfSync transition s)
  | .data => rfData transition s
  | .msg => .ok s
  | .idle => .ok s

/-- `RF_Handler`, one RF tick (R219). In MSG and IDLE nothing is sampled or counted (R228). -/
def rfHandler (s : State) : Except Fault State :=
  if s.rf.mode = .msg ∨ s.rf.mode = .idle then .ok s
  else
    let s1 := rfSample s
    match rfModeStep s1.rf.mode (s1.rf.sample != s1.rf.lastSample) s1 with
    | .error f => .error f
    | .ok s2 => .ok (rfRecordSample s2)

/-! ## The commands -/

/-- The action of `RF_INIT` on usable operands (R211). BUF is not cleared. -/
def rfInitAction (pin : Byte) (baud : Half) (s : State) : State :=
  let f := timerFit s.cfg (rfTickCycles s.cfg baud)
  let s1 := (pinRelease pin.toNat s).setRf ⟨pin, false, false, 0, 0, .idle, 0, 0, 0, 0, 0, false⟩
  (armRfSource (s1.setRt (startTimer f.ps f.pr))).setResult 0

/-- `RF_INIT` (R211). -/
def execRfInit (pin : Byte) (baud : Half) (s : State) : Out :=
  runProgram
    (if rfInitUsable s.cfg pin baud then immediate (fun s => .ok (rfInitAction pin baud s))
     else refusedProgram argRefused) s

/-- Arm the receiver for a frame of at most `m` bytes, the first of which is a length where `lenpfx` is 1
(R213, R214): the samples and the count are kept. -/
def rfArm (m : Byte) (lenpfx : Bool) (s : State) : State :=
  (s.setRf { s.rf with
    capBytes := m, maxBytes := m, lenpfx := lenpfx, manBits := 0, numMB := 0, curByte := 0,
    mode := .pre }).setResult 0

/-- `RF_BEGIN` (R213). -/
def execRfBegin (s : State) : Out := runProgram (immediate (fun s => .ok (rfArm 2 false s))) s

/-- `RF_BEGIN_BYTES` (R214). -/
def execRfBeginBytes (m : Byte) (s : State) : Out :=
  runProgram
    (if maxBytesUsable s.cfg m then immediate (fun s => .ok (rfArm m true s))
     else refusedProgram argRefused) s

/-- `RF_COMPLETE` (R215). -/
def execRfComplete (s : State) : Out :=
  runProgram (immediate (fun s => .ok (s.setResult (if s.rf.mode = .msg then 1 else 0)))) s

/-- The action of `RF_GETMSG` (R216): the first received byte in bits 15:8. -/
def rfGetMsgAction (s : State) : Except Fault State :=
  match bufLoad s 0 with
  | .error f => .error f
  | .ok b0 =>
    match bufLoad s 1 with
    | .error f => .error f
    | .ok b1 => .ok (s.setResult (0#16 ++ b0 ++ b1))

/-- `RF_GETMSG` (R216). -/
def execRfGetMsg (s : State) : Out := runProgram (immediate rfGetMsgAction) s

/-- `RF_STOP` (R217): the rest of the record, BUF and the timer are kept. -/
def execRfStop (s : State) : Out :=
  runProgram (immediate (fun s => .ok ((setMode .idle s).setResult 0))) s

/-- The action of `RF_RDBUF` on an index below `RF_BUF_CAP` (R218). -/
def rfRdBufAction (i : Nat) (s : State) : Except Fault State :=
  match bufLoad s i with
  | .error f => .error f
  | .ok b => .ok (s.setResult (b.setWidth 32))

/-- `RF_RDBUF` (R218). -/
def execRfRdBuf (index : Byte) (s : State) : Out :=
  runProgram
    (if index.toNat < s.cfg.rfBufCap then immediate (rfRdBufAction index.toNat)
     else refusedProgram argRefused) s

end Sys2Proof.Machine
end

