-- ==== Sys2Proof/Machine/Tick.lean ====
section
/-! DEFINITION. Unit TICK: `NOP`, `MILLIS_INIT`, `MILLIS`, `MICROS` and the TICK interrupt handler
(40_tick_delay.md R130 to R134, 60_exceptions.md R296). -/

namespace Sys2Proof.Machine

/-- `NOP` (R130): nothing; RESULT becomes 0 on completion. -/
def execNop (s : State) : Out := runProgram (immediate (fun s => .ok (s.setResult 0))) s

/-- The action of `MILLIS_INIT` (R131). A period that does not fit is accepted, truncated, without a flag. -/
def millisInitAction (s : State) : State :=
  let f := timerFit s.cfg (s.cfg.fClk / 1000)
  (armTickSource ((s.setTt (startTimer f.ps f.pr)).setTick 0)).setResult 0

/-- `MILLIS_INIT` (R131). -/
def execMillisInit (s : State) : Out := runProgram (immediate (fun s => .ok (millisInitAction s))) s

/-- `MILLIS` (R132). -/
def execMillis (s : State) : Out := runProgram (immediate (fun s => .ok (s.setResult s.tick))) s

/-- The value of `MICROS` (R133): `tick * 1000 + frac` modulo 2^32, `frac` from the running timer. -/
def microsValue (s : State) : Word :=
  BitVec.ofNat 32 (s.tick.toNat * 1000 + s.tt.tmr.toNat * 1000 / (s.tt.pr.toNat + 1))

/-- `MICROS` (R133). -/
def execMicros (s : State) : Out := runProgram (immediate (fun s => .ok (s.setResult (microsValue s)))) s

/-- The TICK handler (60_exceptions.md R296). -/
def tickHandler (s : State) : State := s.setTick (s.tick + 1)

end Sys2Proof.Machine
end

