-- ==== Sys2Proof/Syntax.lean ====
section
/-! DEFINITION. The twenty-three commands of PTB (30_encoding.md R105), one constructor per row of
spec/opcode_table.json, each operand a field of exactly the width its format gives it (R101, R102). -/

namespace Sys2Proof

/-- One command. An operand's type is its encoding field, so every term is encodable; whether the
command can USE the value is the command's own check (30_encoding.md R112). -/
inductive Instr where
  /-- `NOP`, format F0 (R130). -/
  | nop
  /-- `MILLIS_INIT`, format F0 (R131). -/
  | millisInit
  /-- `MILLIS`, format F0 (R132). -/
  | millis
  /-- `MICROS`, format F0 (R133). -/
  | micros
  /-- `DELAYUS`, format FB16 (R141). -/
  | delayUs (n : Half)
  /-- `DELAYMS`, format FB16 (R142). -/
  | delayMs (n : Half)
  /-- `OW_RESET`, format FA (R165). -/
  | owReset (pin : Byte)
  /-- `OW_READBIT`, format FA (R167). -/
  | owReadBit (pin : Byte)
  /-- `OW_WRITEBIT`, format FAB1 (R166). -/
  | owWriteBit (pin : Byte) (bit : BitVec 1)
  /-- `OW_READBYTE`, format FA (R172). -/
  | owReadByte (pin : Byte)
  /-- `OW_WRITEBYTE`, format FAB8 (R170). -/
  | owWriteByte (pin : Byte) (byte : Byte)
  /-- `MAN_ENCODE`, format FB8 (R191). -/
  | manEncode (byte : Byte)
  /-- `MAN_DECODE`, format FB16, `in[1]` and `in[0]` (R195). -/
  | manDecode (in1 : Byte) (in0 : Byte)
  /-- `MAN_NIBBLER`, format FB8 (R193). -/
  | manNibbler (byte : Byte)
  /-- `RF_INIT`, format FAB16 (R211). -/
  | rfInit (pin : Byte) (baud : Half)
  /-- `RF_BEGIN`, format F0 (R213). -/
  | rfBegin
  /-- `RF_BEGIN_BYTES`, format FB8 (R214). -/
  | rfBeginBytes (maxBytes : Byte)
  /-- `RF_COMPLETE`, format F0 (R215). -/
  | rfComplete
  /-- `RF_GETMSG`, format F0 (R216). -/
  | rfGetMsg
  /-- `RF_STOP`, format F0 (R217). -/
  | rfStop
  /-- `RF_RDBUF`, format FB8 (R218). -/
  | rfRdBuf (index : Byte)
  /-- `EVT_ONTIMER`, format FEVT (R261). -/
  | evtOnTimer (slot : BitVec 4) (unit : BitVec 2) (delay : Half)
  /-- `EVT_RELEASE`, format FS (R265). -/
  | evtRelease (slot : BitVec 4)
deriving DecidableEq, Repr

end Sys2Proof
end

