-- ==== Sys2Proof/Machine/Dispatch.lean ====
section
/-! DEFINITION. `exec i s`: one clock cycle of SEQ, not held, on the command `i` (10_state.md R25). One arm
per command, each a call of that command's own meaning. -/

namespace Sys2Proof.Machine

def exec (i : Instr) (s : State) : Host.Outcome State Fault Refusal :=
  match i with
  -- TICK and DLY (40_tick_delay.md)
  | .nop => Sys2Proof.Machine.execNop s
  | .millisInit => Sys2Proof.Machine.execMillisInit s
  | .millis => Sys2Proof.Machine.execMillis s
  | .micros => Sys2Proof.Machine.execMicros s
  | .delayUs n => Sys2Proof.Machine.execDelayUs n s
  | .delayMs n => Sys2Proof.Machine.execDelayMs n s
  -- OW (41_onewire.md)
  | .owReset pin => Sys2Proof.Machine.execOwReset pin s
  | .owReadBit pin => Sys2Proof.Machine.execOwReadBit pin s
  | .owWriteBit pin bit => Sys2Proof.Machine.execOwWriteBit pin bit s
  | .owReadByte pin => Sys2Proof.Machine.execOwReadByte pin s
  | .owWriteByte pin byte => Sys2Proof.Machine.execOwWriteByte pin byte s
  -- MAN (42_manchester.md)
  | .manEncode byte => Sys2Proof.Machine.execManEncode byte s
  | .manDecode in1 in0 => Sys2Proof.Machine.execManDecode in1 in0 s
  | .manNibbler byte => Sys2Proof.Machine.execManNibbler byte s
  -- RF (43_rf433.md)
  | .rfInit pin baud => Sys2Proof.Machine.execRfInit pin baud s
  | .rfBegin => Sys2Proof.Machine.execRfBegin s
  | .rfBeginBytes m => Sys2Proof.Machine.execRfBeginBytes m s
  | .rfComplete => Sys2Proof.Machine.execRfComplete s
  | .rfGetMsg => Sys2Proof.Machine.execRfGetMsg s
  | .rfStop => Sys2Proof.Machine.execRfStop s
  | .rfRdBuf index => Sys2Proof.Machine.execRfRdBuf index s
  -- EVT (44_event_dispatcher.md)
  | .evtOnTimer slot unit delay => Sys2Proof.Machine.execEvtOnTimer slot unit delay s
  | .evtRelease slot => Sys2Proof.Machine.execEvtRelease slot s

end Sys2Proof.Machine
end

