-- ==== Sys2Proof/WellFormed.lean ====
section
/-! DEFINITION. What is well formed: a command WORD (30_encoding.md R101, R110) and a CONFIGURATION
(the constraints of 00_scope.md R11 to R17). A command as a term of `Instr` is well formed by its
type: each operand is a bit field of exactly its format's width. -/

namespace Sys2Proof

/-- The nine operand formats (30_encoding.md R101). -/
inductive Format where
  | f0 | fa | fs | fb16 | fb8 | fab16 | fab8 | fab1 | fevt
deriving DecidableEq, Repr

/-- Why a word is no command (30_encoding.md R110). -/
inductive IllegalWord where
  /-- The OP field is none of the twenty-three (R111). -/
  | reservedOp (op : Byte)
  /-- A must-be-zero bit of the format is 1. -/
  | mustBeZero (f : Format)
deriving DecidableEq, Repr

/-- The must-be-zero bits of a format are 0, said of the fields A and B of the word (R101, column
'must-be-zero bits of the word'). -/
def Format.unusedBitsZero (f : Format) (a : Byte) (b : Half) : Bool :=
  match f with
  | .f0 => a == 0 && b == 0
  | .fa => b == 0
  | .fs => a.extractLsb' 4 4 == 0 && b == 0
  | .fb16 => a == 0
  | .fb8 => a == 0 && b.extractLsb' 8 8 == 0
  | .fab16 => true
  | .fab8 => b.extractLsb' 8 8 == 0
  | .fab1 => b.extractLsb' 1 15 == 0
  | .fevt => a.extractLsb' 6 2 == 0

namespace Config

/-- R11: `F_CLK` is a positive multiple of 1 000 000. -/
abbrev ClockValid (c : Config) : Prop := 0 < c.fClk ∧ c.fClk % 1000000 = 0

/-- R12: the timer width, the prescale divisors and the number of EVT slots. -/
abbrev TimersValid (c : Config) : Prop :=
  1 ≤ c.tmrW ∧ c.tmrW ≤ 16 ∧ c.psSet ≠ [] ∧ c.psSet.Pairwise (· < ·) ∧
    (∀ p ∈ c.psSet, 1 ≤ p ∧ p ≤ 65535) ∧ 2 ≤ c.nEvt ∧ c.nEvt ≤ 8

/-- R140, R144, R150: every dwell fits the 32-bit countdown `seq.cnt` ('cannot overflow'; log 11). -/
abbrev DwellsFit (c : Config) : Prop :=
  c.dlyUsOvh + 65535 * (c.fClk / 1000000) < 2 ^ 32 ∧ c.dlyMsOvh < 2 ^ 32 ∧ c.owGapCyc < 2 ^ 32

/-- R14: the ten one-wire durations and 'both branches must total the same overall slot duration'. -/
abbrev OneWireValid (c : Config) : Prop :=
  (c.timeA ≤ 65535 ∧ c.timeB ≤ 65535 ∧ c.timeC ≤ 65535 ∧ c.timeD ≤ 65535 ∧ c.timeE ≤ 65535) ∧
    (c.timeF ≤ 65535 ∧ c.timeG ≤ 65535 ∧ c.timeH ≤ 65535 ∧ c.timeI ≤ 65535 ∧ c.timeJ ≤ 65535) ∧
    c.timeA + c.timeB = c.timeC + c.timeD

/-- R15: the RF windows, the preamble bounds and the buffer's capacity. -/
abbrev RfValid (c : Config) : Prop :=
  (1 ≤ c.minCount ∧ c.minCount ≤ c.maxCount ∧ c.maxCount < c.minLongCount ∧
    c.minLongCount ≤ c.maxLongCount ∧ c.maxLongCount ≤ 65535) ∧
    (c.syncPulseMin ≤ c.syncPulseMax ∧ c.syncPulseMax ≤ 126) ∧ 2 ≤ c.rfBufCap ∧ c.rfBufCap ≤ 255

/-- R16, R17: one service cost per EVT slot, and the number of pins. -/
abbrev PinsAndServiceValid (c : Config) : Prop :=
  1 ≤ c.npins ∧ c.npins ≤ 32 ∧ c.isrEvt.length = c.nEvt

/-- The parameters meet every constraint the spec states. -/
abbrev Valid (c : Config) : Prop :=
  c.ClockValid ∧ c.TimersValid ∧ c.DwellsFit ∧ c.OneWireValid ∧ c.RfValid ∧ c.PinsAndServiceValid

end Config

end Sys2Proof
end

