-- ==== Sys2Proof/Decode.lean ====
section
/-! DEFINITION. The command word (30_encoding.md R100 to R111): the decoder, total on every 32-bit
word and refusing an illegal one by name, and the encoder written from the same table. -/

namespace Sys2Proof

/-- The three fields of a command word (R100): OP 31:24, A 23:16, B 15:0. -/
def opField (w : Word) : Byte := w.extractLsb' 24 8

/-- Field A, bits 23:16 (R100). -/
def aField (w : Word) : Byte := w.extractLsb' 16 8

/-- Field B, bits 15:0 (R100). -/
def bField (w : Word) : Half := w.extractLsb' 0 16

/-- A row of the opcode map (R105): an opcode, its format and the command its fields A and B name. -/
structure OpRow where
  op : Byte
  format : Format
  build : Byte → Half → Instr

/-- `slot = A[3:0]` (R102). -/
def slotOf (a : Byte) : BitVec 4 := a.extractLsb' 0 4

/-- `unit = A[5:4]` (R102). -/
def unitOf (a : Byte) : BitVec 2 := a.extractLsb' 4 2

/-- A byte operand `B[7:0]` (R102). -/
def lowByte (b : Half) : Byte := b.extractLsb' 0 8

/-- `in[1] = B[15:8]` (R102). -/
def highByte (b : Half) : Byte := b.extractLsb' 8 8

/-- A bit operand `B[0]` (R102). -/
def lowBit (b : Half) : BitVec 1 := b.extractLsb' 0 1

/-- The opcode map (R105), in the table's order. Any other OP is reserved (R111). -/
def opcodeMap : List OpRow :=
  [ ⟨0x00#8, .f0, fun _ _ => .nop⟩,
    ⟨0x01#8, .f0, fun _ _ => .millisInit⟩,
    ⟨0x02#8, .f0, fun _ _ => .millis⟩,
    ⟨0x03#8, .f0, fun _ _ => .micros⟩,
    ⟨0x08#8, .fb16, fun _ b => .delayUs b⟩,
    ⟨0x09#8, .fb16, fun _ b => .delayMs b⟩,
    ⟨0x10#8, .fa, fun a _ => .owReset a⟩,
    ⟨0x11#8, .fa, fun a _ => .owReadBit a⟩,
    ⟨0x12#8, .fab1, fun a b => .owWriteBit a (lowBit b)⟩,
    ⟨0x13#8, .fa, fun a _ => .owReadByte a⟩,
    ⟨0x14#8, .fab8, fun a b => .owWriteByte a (lowByte b)⟩,
    ⟨0x20#8, .fb8, fun _ b => .manEncode (lowByte b)⟩,
    ⟨0x21#8, .fb16, fun _ b => .manDecode (highByte b) (lowByte b)⟩,
    ⟨0x22#8, .fb8, fun _ b => .manNibbler (lowByte b)⟩,
    ⟨0x30#8, .fab16, fun a b => .rfInit a b⟩,
    ⟨0x31#8, .f0, fun _ _ => .rfBegin⟩,
    ⟨0x32#8, .fb8, fun _ b => .rfBeginBytes (lowByte b)⟩,
    ⟨0x33#8, .f0, fun _ _ => .rfComplete⟩,
    ⟨0x34#8, .f0, fun _ _ => .rfGetMsg⟩,
    ⟨0x35#8, .f0, fun _ _ => .rfStop⟩,
    ⟨0x36#8, .fb8, fun _ b => .rfRdBuf (lowByte b)⟩,
    ⟨0x40#8, .fevt, fun a b => .evtOnTimer (slotOf a) (unitOf a) b⟩,
    ⟨0x41#8, .fs, fun a _ => .evtRelease (slotOf a)⟩ ]

/-- The row of an opcode, if it has one (R105, R111). -/
def rowOf (op : Byte) : Option OpRow := opcodeMap.find? (fun r => r.op == op)

/-- Decode a word: the command it names, or why it is illegal (R110). No word but `NOP`'s own executes
as a no-op and no reserved word falls through to a neighbour (R111). -/
def decode (w : Word) : Except IllegalWord Instr :=
  match rowOf (opField w) with
  | none => .error (.reservedOp (opField w))
  | some r =>
    if r.format.unusedBitsZero (aField w) (bField w) then .ok (r.build (aField w) (bField w))
    else .error (.mustBeZero r.format)

/-- The word is legal (R110): writing it to CMD starts a command. -/
def legalWord (w : Word) : Bool :=
  match decode w with
  | .ok _ => true
  | .error _ => false

/-- `{OP, A, B}` (R100). -/
def commandWord (op : Byte) (a : Byte) (b : Half) : Word := (op ++ a ++ b : BitVec 32)

/-- The word of a command (R101, R102, R105): the operands in their fields, every unused bit 0. -/
def encode : Instr → Word
  | .nop => commandWord 0x00 0 0
  | .millisInit => commandWord 0x01 0 0
  | .millis => commandWord 0x02 0 0
  | .micros => commandWord 0x03 0 0
  | .delayUs n => commandWord 0x08 0 n
  | .delayMs n => commandWord 0x09 0 n
  | .owReset pin => commandWord 0x10 pin 0
  | .owReadBit pin => commandWord 0x11 pin 0
  | .owWriteBit pin bit => commandWord 0x12 pin (0#15 ++ bit)
  | .owReadByte pin => commandWord 0x13 pin 0
  | .owWriteByte pin byte => commandWord 0x14 pin (0#8 ++ byte)
  | .manEncode byte => commandWord 0x20 0 (0#8 ++ byte)
  | .manDecode in1 in0 => commandWord 0x21 0 (in1 ++ in0)
  | .manNibbler byte => commandWord 0x22 0 (0#8 ++ byte)
  | .rfInit pin baud => commandWord 0x30 pin baud
  | .rfBegin => commandWord 0x31 0 0
  | .rfBeginBytes m => commandWord 0x32 0 (0#8 ++ m)
  | .rfComplete => commandWord 0x33 0 0
  | .rfGetMsg => commandWord 0x34 0 0
  | .rfStop => commandWord 0x35 0 0
  | .rfRdBuf index => commandWord 0x36 0 (0#8 ++ index)
  | .evtOnTimer slot unit delay => commandWord 0x40 (0#2 ++ unit ++ slot) delay
  | .evtRelease slot => commandWord 0x41 (0#4 ++ slot) 0

/-- The 32-bit word whose low `nbits` bits are `w`, every bit above them 0; none where `w` does not fit
a command word. A command has one word, so no order of words or bytes is involved (R71, R80, R100). -/
def tableWord (nbits w : Nat) : Option Word :=
  let v := w % 2 ^ nbits
  if v < 2 ^ 32 then some (BitVec.ofNat 32 v) else none

/-- The command the decoder reads from a word numbered as spec/opcode_table.json numbers it. -/
def decodeTableWord (nbits w : Nat) : Option Instr :=
  match tableWord nbits w with
  | none => none
  | some v =>
    match decode v with
    | .ok i => some i
    | .error _ => none

end Sys2Proof
end

