-- ==== Sys2Proof/Machine/HostPort.lean ====
section
/-! DEFINITION. The host's register port (20_memory.md R71 to R75): what each word index reads, and what a
write to it does. -/

namespace Sys2Proof.Machine

/-- `<T>TMR = {zext_16(T.pr), zext_16(T.tmr)}` (10_state.md R32). -/
def timerTmrWord (t : Timer) : Word := t.pr ++ t.tmr

/-- `<T>CFG = {T.ps, 15 zero bits, T.on}` (10_state.md R32). -/
def timerCfgWord (t : Timer) : Word := t.ps ++ 0#15 ++ BitVec.ofBool t.on

/-- `EVTCFG[k]`: as `<T>CFG`, with `evt[k].used` in bit 1 (10_state.md R32, R41). -/
def evtCfgWord (e : EvtSlot) : Word := e.t.ps ++ 0#14 ++ BitVec.ofBool e.used ++ BitVec.ofBool e.t.on

/-- RFSTAT (10_state.md R38). -/
def rfStatWord (r : RfRecord) : Word :=
  r.maxBytes ++ r.curByte ++ 0#3 ++ r.numMB ++ 0#2 ++ BitVec.ofBool r.lenpfx ++
    BitVec.ofBool r.lastSample ++ BitVec.ofBool r.sample ++ modeCode r.mode

/-- RFCNT (10_state.md R38). -/
def rfCntWord (r : RfRecord) : Word := r.capBytes ++ r.syncCount ++ r.count

/-- RFBITS (10_state.md R38). -/
def rfBitsWord (r : RfRecord) : Word := 0#8 ++ r.pin ++ r.manBits

/-- The eight words of EVT slot `k`, `r` the word within them; a slot that does not exist and the three words
after EVTCB are reserved and read 0 (20_memory.md R72, R74). -/
def evtWord (s : State) (k r : Nat) : Word :=
  if k < s.cfg.nEvt then
    if r = 0 then timerTmrWord (slotAt s k).t
    else if r = 1 then evtCfgWord (slotAt s k)
    else if r = 2 then (slotAt s k).count
    else if r = 3 then (slotAt s k).limit
    else if r = 4 then (slotAt s k).cb
    else 0
  else 0

/-- The registers below the EVT block, by word index (20_memory.md R72). -/
def lowWord (s : State) (n : Nat) : Word :=
  if n = 0 then s.seq.cmd
  else if n = 1 then s.cbarg
  else if n = 2 then s.result
  else if n = 3 then statusWord s
  else if n = 4 then intconWord s
  else if n = 5 then s.tick
  else if n = 6 then timerTmrWord s.tt
  else if n = 7 then timerCfgWord s.tt
  else if n = 8 then rfStatWord s.rf
  else if n = 9 then rfCntWord s.rf
  else if n = 10 then rfBitsWord s.rf
  else if n = 11 then timerTmrWord s.rt
  else if n = 12 then timerCfgWord s.rt
  else 0

/-- The pin registers, by word index (20_memory.md R72): PININ reads the level of the previous cycle. -/
def pinWord (s : State) (n : Nat) : Word :=
  if n = 80 then s.pinDir &&& pinMask s.cfg
  else if n = 81 then s.pinLat &&& pinMask s.cfg
  else if n = 82 then s.pinQ &&& pinMask s.cfg
  else 0

/-- `MemRead(REG, 4 * widx, 4)`: a register's value; a reserved or non-existent offset reads 0
(20_memory.md R72, R74). -/
def regRead (s : State) (widx : BitVec 7) : Word :=
  let n := widx.toNat
  if n < 16 then lowWord s n
  else if n < 80 then evtWord s ((n - 16) / 8) ((n - 16) % 8)
  else pinWord s n

/-- A host write to CMD (30_encoding.md R103, R104, R110; the order of the tests is 60_exceptions.md R283). -/
def writeCmd (w : Word) (s : State) : State :=
  if s.seq.busy then raiseOvr s
  else if legalWord w then acceptCommand w s
  else raiseIll s

/-- `MemWrite(REG, 4 * widx, 4, v)`: CMD, CBARG, STATUS and INTCON; any other index ignores the write
(20_memory.md R72, R74, R75). -/
def regWrite (widx : BitVec 7) (v : Word) (s : State) : State :=
  if widx = 0 then writeCmd v s
  else if widx = 1 then s.setCbarg v
  else if widx = 3 then writeStatus v s
  else if widx = 4 then writeIntcon v s
  else s

/-- Step 1 of the cycle (70_reset_and_hazards.md R330): a read changes nothing but the read data. -/
def hostAccess (a : HostAccess) (s : State) : State :=
  match a with
  | .idle => s
  | .read widx => s.setReadData (some (regRead s widx))
  | .write widx v => regWrite widx v s

/-- The word index of a bus access of `n` bytes at byte offset `off`, where the port can express it: one
aligned 32-bit word inside the map; anything else is refused (20_memory.md R71, R73; log 17). -/
def portIndex (off n : Nat) : Option (BitVec 7) :=
  if n = 4 ∧ off % 4 = 0 ∧ off < 512 then some (BitVec.ofNat 7 (off / 4)) else none

end Sys2Proof.Machine
end

