-- ==== Sys2Proof/Machine/Cycle.lean ====
section
/-! DEFINITION. The parts of one clock cycle (70_reset_and_hazards.md R320, R330): its inputs, reset, the
INT step, the SEQ step, and the end of the cycle; and how a command word is placed where SEQ fetches it. -/

namespace Sys2Proof.Machine

/-- The inputs of the next cycle: the first of the list; where the list is empty the host makes no access,
reset is not asserted, and the pin levels are free (log 2). -/
def nextInput (s : State) : Input := s.inputs.headD ⟨false, .idle, Config.freePins s.cycle⟩

/-- A cycle with `rst = 1` (R320): nothing else happens, and every piece of state has its reset value. The
parameters, the cycle counter and the rest of the inputs are not the block's state and go on (log 14). -/
def resetCycle (s : State) : State :=
  ((State.resetWith s.cfg).setCycle (s.cycle + 1)).setInputs s.inputs.tail

/-- The start of a cycle: the pads take their levels, and the outputs of the previous cycle end (R267, R330). -/
def beginCycle (inp : Input) (s : State) : State :=
  ((((s.setPinIn (padLevels s inp.pins)).setCallback CallbackPort.quiet).setReadData none).setCycle
    (s.cycle + 1)).setInputs s.inputs.tail

/-- The handler of a source (60_exceptions.md R296 to R298). -/
def handlerOf (src : IntSource) (s : State) : Except Fault State :=
  match src with
  | .tick => .ok (tickHandler s)
  | .rf => rfHandler s
  | .evt k => .ok (evtHandler k s)

/-- INT's dispatch (60_exceptions.md R295): with no handler in service, the ready source of highest priority
is served. -/
def intDispatch (s : State) : Except Fault State :=
  if s.isrBusy = 0 then
    match readySource s with
    | some src => takeInterrupt (handlerOf src) src s
    | none => .ok s
  else .ok s

/-- `hold`: SEQ does not step while a handler is charged for (60_exceptions.md R295). -/
def held (s : State) : Bool := decide (0 < s.isrBusy)

/-- The command SEQ has in progress: the one its word decodes to. -/
def fetchCommand (s : State) : Except IllegalWord Instr := decode s.seq.cmd

/-- Step 4 of the cycle (R330): SEQ steps if it was busy at the start of the cycle and is not held. -/
def seqCycle (wasBusy hold : Bool) (s : State) : Out :=
  if wasBusy && !hold then
    match fetchCommand s with
    | .ok i => exec i s
    | .error _ => .refused (.notACommand s.seq.cmd)
  else .next s

/-- Step 5 of the cycle (R330): `pin_q[p] <- pin_in[p]`. -/
def endCycle (s : State) : State := s.setPinQ s.pinIn

/-- The outcome with its next state changed. -/
def mapNext (f : State → State) : Out → Out
  | .next s => .next (f s)
  | .fault r => .fault r
  | .refused r => .refused r

/-- Steps 1 to 3 of the cycle up to INT's dispatch (R330). -/
def beforeSeq (s : State) : Except Fault State :=
  intDispatch (timersStep (hostAccess (nextInput s).host (beginCycle (nextInput s) s)))

/-- Steps 3 to 5 from `hold` on (R330, 60_exceptions.md R295): the countdown of `isr_busy`, SEQ, `pin_q`. -/
def afterInt (wasBusy : Bool) (s : State) : Out :=
  mapNext endCycle (seqCycle wasBusy (held s) (isrCountdown s))

/-- A cycle without reset (R330). -/
def runCycle (s : State) : Out :=
  match beforeSeq s with
  | .error f => .fault f
  | .ok s1 => afterInt s.seq.busy s1

/-- Place the command word `w` where SEQ fetches: as after its acceptance (30_encoding.md R103), with no
interrupt to be served and no reset or host access in the next cycle, so that the next step is the
first cycle of that command (log 6). -/
def placeCommand (w : Word) (s : State) : State :=
  let inputs :=
    match s.inputs with
    | [] => []
    | l => ⟨false, .idle, Config.freePins s.cycle⟩ :: l
  (((acceptCommand w s).setIsrBusy 0).setIntcon { s.intcon with gie := false }).setInputs inputs

end Sys2Proof.Machine
end

