-- ==== Sys2Proof/Machine/Step.lean ====
section
/-! DEFINITION. The step function: one clock cycle of PTB (70_reset_and_hazards.md R330). -/

namespace Sys2Proof.Machine

/-- One clock cycle: reset if `rst = 1` (R320), else host access, timers, INT, SEQ, `pin_q` (R330). -/
def step (s : State) : Host.Outcome State Fault Refusal :=
  if (nextInput s).rst then .next (resetCycle s) else runCycle s

/-- The state with an instruction of `nbits` bits, numbered as spec/opcode_table.json numbers them, stored where
`step` fetches its next instruction: as the command SEQ has just accepted (log 6). -/
def State.withFetchWord (s : State) (nbits w : Nat) : State :=
  placeCommand (BitVec.ofNat 32 (w % 2 ^ nbits)) s

end Sys2Proof.Machine
end

