-- ==== Sys2Proof/Machine/HostProgram.lean ====
section
/-! DEFINITION. A program for PTB is a sequence of HOST actions (30_encoding.md R115, 70_reset_and_hazards.md
R335, R336): the block fetches no program itself. A program chooses the host's access of each cycle;
reset and the pin levels of the cycle stay the environment's. -/

namespace Sys2Proof.Machine

/-- An action of the host (30_encoding.md R115). `poll` is a wait for BUSY = 0 that has begun. -/
inductive HostAction where
  | write (widx : BitVec 7) (v : Word)
  | read (widx : BitVec 7)
  | waitIdle
  | waitCycles (n : Nat)
  | command (w : Word)
  | poll
deriving DecidableEq, Repr

/-- The host's access of the next cycle and the actions left after it, where `last` is what the host read in
the cycle before. A command is `write CMD w; wait until BUSY = 0; read RESULT`, and the wait reads STATUS
once a cycle (R115, R336). -/
def hostNext (last : Option Word) : List HostAction → HostAccess × List HostAction
  | [] => (.idle, [])
  | .write widx v :: rest => (.write widx v, rest)
  | .read widx :: rest => (.read widx, rest)
  | .waitIdle :: rest => (.read 3, .poll :: rest)
  | .waitCycles 0 :: rest => hostNext last rest
  | .waitCycles (n + 1) :: rest => (.idle, .waitCycles n :: rest)
  | .command w :: rest => (.write 0 w, .waitIdle :: .read 2 :: rest)
  | .poll :: rest =>
    match last with
    | some v => if v.getLsbD 0 then (.read 3, .poll :: rest) else hostNext last rest
    | none => (.read 3, .poll :: rest)

/-- The state with the host's access of the next cycle chosen by a program. -/
def withHost (a : HostAccess) (s : State) : State :=
  s.setInputs (⟨(nextInput s).rst, a, (nextInput s).pins⟩ :: s.inputs.tail)

/-- `n` cycles of the block with a host that runs a program: the actions left and the state, or where it
stops. -/
def hostRun : Nat → List HostAction → State → Host.Outcome (List HostAction × State) Fault Refusal
  | 0, acts, s => .next (acts, s)
  | n + 1, acts, s =>
    match step (withHost (hostNext s.readData acts).1 s) with
    | .next t => hostRun n (hostNext s.readData acts).2 t
    | .fault f => .fault f
    | .refused r => .refused r

end Sys2Proof.Machine
end

