-- ==== Sys2Proof/Safety.lean ====
section
/-! DEFINITION. The terms the claims use: where a command stands in its micro-program, several cycles of one
command, and the invariants every cycle keeps (10_state.md R36, R40, R41; 41_onewire.md R175, R176). -/

namespace Sys2Proof.Machine

/-! ## Where a command stands (10_state.md R25) -/

/-- A command has been accepted and its first phase is not yet entered (R25, 30_encoding.md R103). -/
abbrev Accepted (s : State) : Prop :=
  s.seq.busy = true ∧ s.seq.fresh = true ∧ s.seq.phase = 0 ∧ s.seq.cnt = 0

/-- A command is in phase `k` and the phase's dwell has run out, so that this cycle enters phase `k + 1`. -/
abbrev PhaseOver (s : State) (k : Nat) : Prop :=
  s.seq.busy = true ∧ s.seq.fresh = false ∧ s.seq.phase = BitVec.ofNat 32 k ∧ s.seq.cnt = 0

/-- SEQ just after phase `k` has been entered with a dwell of `d > 0` cycles, the first of which has run. -/
def inPhase (q : Seq) (k d : Nat) : Seq :=
  { q with fresh := false, phase := BitVec.ofNat 32 k, cnt := BitVec.ofNat 32 (d - 1) }

/-- SEQ just after a command of `k` phases has completed. -/
def completed (q : Seq) (k : Nat) : Seq :=
  { q with busy := false, fresh := false, phase := BitVec.ofNat 32 k, cnt := 0 }

/-- SEQ while phase `k` dwells, with `r` cycles of it left after this one. -/
def dwelling (q : Seq) (k r : Nat) : Seq :=
  { q with fresh := false, phase := BitVec.ofNat 32 k, cnt := BitVec.ofNat 32 r }

/-- `n` cycles of SEQ on the command `i`, none of them held, with nothing else in the block moving. -/
def execTimes (i : Instr) : Nat → State → Out
  | 0, s => .next s
  | n + 1, s =>
    match execTimes i n s with
    | .next t => exec i t
    | .fault f => .fault f
    | .refused r => .refused r

/-- `n` cycles of SEQ on the command `i`, none of them held, the pads having the levels `lv m` in the cycle at
the offset `m` from the first one (41_onewire.md R177), with nothing else in the block moving. -/
def execLevels (i : Instr) (lv : Nat → BitVec 32) : Nat → State → Out
  | 0, s => .next s
  | n + 1, s =>
    match execLevels i lv n s with
    | .next t => exec i (t.setPinIn (lv n))
    | .fault f => .fault f
    | .refused r => .refused r

/-- `n` clock cycles of the block. -/
def stepTimes : Nat → State → Out
  | 0, s => .next s
  | n + 1, s =>
    match step s with
    | .next t => stepTimes n t
    | .fault f => .fault f
    | .refused r => .refused r

/-- The offset at which slot `i` of `OW_WRITEBYTE` starts, slots and gaps before it summed (41_onewire.md R170). -/
def writeSlotStart (c : Config) (v : Byte) : Nat → Nat
  | 0 => 0
  | i + 1 => writeSlotStart c v i + writeLow c (v.getLsbD i) + writeRest c (v.getLsbD i) + slotGap c i

/-- The offset at which slot `i` of `OW_READBYTE` starts (41_onewire.md R172). -/
def readSlotStart (c : Config) (i : Nat) : Nat :=
  i * (cyc c c.timeA + cyc c c.timeE + cyc c c.timeF + c.owGapCyc)

/-- A timer after `n` clock cycles (10_state.md R30). -/
def timerAfter (w : Nat) : Nat → Timer → Timer
  | 0, t => t
  | n + 1, t => timerAfter w n (timerStep w t).1

/-! ## The encoding, the interrupts and the handlers -/

/-- The 23 commands' words as (match, mask), from the formats and the opcodes (30_encoding.md R101, R105). -/
def commandPatterns : List (Word × Word) :=
  [ (0x00000000, 0xFFFFFFFF), (0x01000000, 0xFFFFFFFF), (0x02000000, 0xFFFFFFFF), (0x03000000, 0xFFFFFFFF),
    (0x08000000, 0xFFFF0000), (0x09000000, 0xFFFF0000), (0x10000000, 0xFF00FFFF), (0x11000000, 0xFF00FFFF),
    (0x12000000, 0xFF00FFFE), (0x13000000, 0xFF00FFFF), (0x14000000, 0xFF00FF00), (0x20000000, 0xFFFFFF00) ] ++
  [ (0x21000000, 0xFFFF0000), (0x22000000, 0xFFFFFF00), (0x30000000, 0xFF000000), (0x31000000, 0xFFFFFFFF),
    (0x32000000, 0xFFFFFF00), (0x33000000, 0xFFFFFFFF), (0x34000000, 0xFFFFFFFF), (0x35000000, 0xFFFFFFFF),
    (0x36000000, 0xFFFFFF00), (0x40000000, 0xFFC00000), (0x41000000, 0xFFF0FFFF) ]

/-- The number of an interrupt source (60_exceptions.md R290). -/
def sourceNumber : IntSource → Nat
  | .tick => 0
  | .rf => 1
  | .evt k => 2 + k

/-- The pending flag of a source (60_exceptions.md R290). -/
def pending (s : State) : IntSource → Bool
  | .tick => s.intcon.ifTick
  | .rf => s.intcon.ifRf
  | .evt k => s.intcon.ifEvt.getLsbD k

/-- `n` runs of slot `k`'s handler, each in a cycle of its own (44_event_dispatcher.md R266, R267). -/
def evtTicks (k : Nat) : Nat → State → State
  | 0, s => s
  | n + 1, s => evtHandler k ((evtTicks k n s).setCallback CallbackPort.quiet)

/-- The sample an RF tick accepts (43_rf433.md R220): the level, where the two reads agree; else the one it had. -/
def acceptedSample (s : State) : Bool :=
  if s.pinQ.getLsbD s.rf.pin.toNat = s.pinIn.getLsbD s.rf.pin.toNat then s.pinIn.getLsbD s.rf.pin.toNat
  else s.rf.sample

/-- The count an RF tick measures with (43_rf433.md R219): one more than before, saturating. -/
def tickCount (s : State) : Half := BitVec.ofNat 16 (min (s.rf.count.toNat + 1) 0xFFFF)

/-- `MinCount <= n <= MaxCount` (43_rf433.md R221). -/
abbrev IsShort (c : Config) (n : Half) : Prop := c.minCount ≤ n.toNat ∧ n.toNat ≤ c.maxCount

/-- `MinLongCount <= n <= MaxLongCount` (43_rf433.md R221); so the saturated count is long where `MaxLongCount` is 65535
(DESIGN CHOICE, log 21). -/
abbrev IsLong (c : Config) (n : Half) : Prop := c.minLongCount ≤ n.toNat ∧ n.toNat ≤ c.maxLongCount

/-- The sixteen legal coded bytes with their nibbles (42_manchester.md R194). -/
def nibbleTable : List (Byte × Byte) :=
  [(0xAA, 0x0), (0xA9, 0x1), (0xA6, 0x2), (0xA5, 0x3), (0x9A, 0x4), (0x99, 0x5), (0x96, 0x6), (0x95, 0x7),
   (0x6A, 0x8), (0x69, 0x9), (0x66, 0xA), (0x65, 0xB), (0x5A, 0xC), (0x59, 0xD), (0x56, 0xE), (0x55, 0xF)]

/-- What the nibbler returns, by the table: the sentinel itself, a nibble, or 0xFF (42_manchester.md R194). -/
def nibbleOf (c : Byte) : Byte := if c = 0xF0 then 0xF0 else (nibbleTable.lookup c).getD 0xFF

/-- The values reset leaves (10_state.md R50, and the callback ports of 70_reset_and_hazards.md R321), `n` the number
of EVT slots. -/
abbrev ResetValues (n : Nat) (t : State) : Prop :=
  t.seq = ⟨false, 0, false, 0, 0, 0, 0⟩ ∧ t.cbarg = 0 ∧ t.result = 0 ∧
    (t.status = ⟨false, false, false, false, false, false, false, false, false, false, false⟩ ∧ regRead t 3 = 0) ∧
    (t.intcon = ⟨false, false, false, 0, false, false, 0⟩ ∧ regRead t 4 = 0) ∧
    (t.pinDir = 0 ∧ t.pinLat = 0 ∧ t.pinQ = 0) ∧ t.tick = 0 ∧ t.tt = ⟨false, 0, 0, 0, 0⟩ ∧
    t.rt = ⟨false, 0, 0, 0, 0⟩ ∧ t.rf = ⟨0, false, false, 0, 0, .idle, 0, 0, 0, 0, 0, false⟩ ∧ t.isrBusy = 0 ∧
    t.callback = ⟨false, 0, 0⟩ ∧ (∀ i, bufByte t i = none) ∧ t.evt = List.replicate n ⟨false, 0, 0, 0, ⟨false, 0, 0, 0, 0⟩⟩

/-! ## Invariants -/

/-- A timer's period and count fit `TMR_W` bits, the count has not passed the period, and a running timer
divides by an element of `PS_SET` (10_state.md R30). -/
abbrev TimerOk (c : Config) (t : Timer) : Prop :=
  t.pr.toNat < 2 ^ c.tmrW ∧ t.tmr.toNat ≤ t.pr.toNat ∧
    (t.on = true → t.ps.toNat ∈ c.psSet ∧ t.psc.toNat < t.ps.toNat)

/-- A slot's timer runs exactly while the slot is bound, and its count is below its limit
(44_event_dispatcher.md R261, R265, R266; 49_common_laws.md R150). -/
abbrev SlotOk (c : Config) (e : EvtSlot) : Prop :=
  TimerOk c e.t ∧ e.t.on = e.used ∧ e.count.toNat < max 1 e.limit.toNat

/-- The timers and the EVT slots; slots that do not exist have no state and no INTCON bit
(10_state.md R23, R40). -/
abbrev TimersInv (s : State) : Prop :=
  TimerOk s.cfg s.tt ∧ TimerOk s.cfg s.rt ∧ (∀ e ∈ s.evt, SlotOk s.cfg e) ∧ s.evt.length = s.cfg.nEvt ∧
    s.intcon.ieEvt &&& ~~~(evtMask s.cfg) = 0 ∧ s.intcon.ifEvt &&& ~~~(evtMask s.cfg) = 0

/-- The receiver's invariants (10_state.md R36 a to d), with what makes them inductive (43_rf433.md R229): in
DATA, once `rf.curByte = rf.maxBytes`, at most two Manchester bits follow before the frame ends. -/
abbrev RfInv (s : State) : Prop :=
  s.rf.numMB.toNat ≤ 15 ∧ s.rf.curByte.toNat ≤ s.rf.maxBytes.toNat ∧
    (s.rf.mode ≠ .idle → 1 ≤ s.rf.capBytes.toNat ∧ s.rf.maxBytes.toNat ≤ s.rf.capBytes.toNat ∧
      s.rf.capBytes.toNat ≤ s.cfg.rfBufCap) ∧
    s.rf.syncCount.toNat ≤ 2 * s.cfg.syncPulseMax + 1 ∧
    (s.rf.mode = .sync → s.rf.syncCount.toNat ≤ 2 * s.cfg.syncPulseMax) ∧
    (s.rf.mode = .data → s.rf.curByte = s.rf.maxBytes →
      s.rf.numMB.toNat ≤ if s.rf.lastSample then 0 else 2)

/-- BUF in its canonical form and inside `RF_BUF_CAP` (10_state.md R37). -/
abbrev BufInv (s : State) : Prop := Memory.wf s.buf ∧ ∀ p ∈ s.buf, p.1 < s.cfg.rfBufCap

/-- A command in progress is a legal word (30_encoding.md R103). -/
abbrev SeqInv (s : State) : Prop := s.seq.busy = true → legalWord s.seq.cmd = true

/-- No latch is ever 1 ('PTB only ever drives a pin low or releases it', 10_state.md R26), and pins that do not
exist have no state. -/
abbrev PinInv (s : State) : Prop := s.pinLat = 0 ∧ s.pinDir &&& ~~~(pinMask s.cfg) = 0

/-- The invariant of the whole block. -/
abbrev Inv (s : State) : Prop :=
  s.cfg.Valid ∧ TimersInv s ∧ RfInv s ∧ BufInv s ∧ SeqInv s ∧ PinInv s

/-- The pin a command drives low while it is in phase `k` (41_onewire.md R165 to R172, R176), if any. -/
def drivenBy (i : Instr) (k : Nat) : Option Nat :=
  match i with
  | .owReset pin => if k = 1 then some pin.toNat else none
  | .owReadBit pin => if k = 0 then some pin.toNat else none
  | .owWriteBit pin _ => if k = 0 then some pin.toNat else none
  | .owReadByte pin => if k < 32 ∧ k % 4 = 0 then some pin.toNat else none
  | .owWriteByte pin _ => if k < 24 ∧ k % 3 = 0 then some pin.toNat else none
  | .nop | .millisInit | .millis | .micros | .delayUs _ | .delayMs _ | .manEncode _ | .manDecode _ _
  | .manNibbler _ | .rfInit _ _ | .rfBegin | .rfBeginBytes _ | .rfComplete | .rfGetMsg | .rfStop
  | .rfRdBuf _ | .evtOnTimer _ _ _ | .evtRelease _ => none

/-- The directions the pins have where the bus state is a function of SEQ's state alone (R176): the one pin of an
OW command in a phase whose action was `PinDriveLow`, and no other. -/
def busDirections (s : State) : BitVec 32 :=
  if s.seq.busy ∧ ¬ s.seq.fresh then
    match decode s.seq.cmd with
    | .ok i =>
      match drivenBy i s.seq.phase.toNat with
      | some p => if p < s.cfg.npins then setBit 0 p true else 0
      | none => 0
    | .error _ => 0
  else 0

/-- An OW command is in a phase that follows a `PinRelease` (41_onewire.md R176). -/
def releasedBy (i : Instr) (k : Nat) : Bool :=
  match i with
  | .owReset _ => decide (k = 2 ∨ k = 3)
  | .owReadBit _ => decide (k = 1 ∨ k = 2)
  | .owWriteBit _ _ => decide (k = 1)
  | .owReadByte _ => decide (k < 32 ∧ k % 4 ≠ 0)
  | .owWriteByte _ _ => decide (k < 24 ∧ k % 3 ≠ 0)
  | .nop | .millisInit | .millis | .micros | .delayUs _ | .delayMs _ | .manEncode _ | .manDecode _ _
  | .manNibbler _ | .rfInit _ _ | .rfBegin | .rfBeginBytes _ | .rfComplete | .rfGetMsg | .rfStop
  | .rfRdBuf _ | .evtOnTimer _ _ _ | .evtRelease _ => false

/-- The bus state of the source's data model (41_onewire.md R176). -/
inductive BusState where
  | idle | drivenLow | released
deriving DecidableEq, Repr

/-- The bus state as a function of SEQ's state; no register stores it (41_onewire.md R176). -/
def busState (s : State) : BusState :=
  if s.seq.busy ∧ ¬ s.seq.fresh then
    match decode s.seq.cmd with
    | .ok i =>
      if (drivenBy i s.seq.phase.toNat).isSome then .drivenLow
      else if releasedBy i s.seq.phase.toNat then .released
      else .idle
    | .error _ => .idle
  else .idle

/-- Every pin is an input but the one an OW command is driving low in its current phase (R175, R176). -/
abbrev BusInv (s : State) : Prop := s.pinDir = busDirections s

end Sys2Proof.Machine
end

