-- ==== Sys2Proof/Certificates/Slice0/Obligations.lean ====
section
/-! DEFINITION. The statements about PTB, one numbered rule of spec/ or a few behind each. An equation
`exec i s = .next { s with … }` is completion, result and frame in one: every field it does not name, BUF
with every byte of it, is unchanged. -/

open Sys2Proof Sys2Proof.Machine

/-! ## The command word (30_encoding.md) -/

/-- R117: each example word decodes to its call and is what the call encodes to; the illegal ones are refused. -/
def Obligations.ExampleWords : Prop :=
  (∀ x ∈ [(Instr.owReset 3, 0x10030000#32), (.owWriteByte 3 0xCC, 0x140300CC#32), (.owWriteBit 3 1, 0x12030001#32),
      (.delayUs 480, 0x080001E0#32), (.manEncode 0xA5, 0x200000A5#32), (.manDecode 0x66 0x99, 0x21006699#32),
      (.rfInit 5 1200, 0x300504B0#32), (.rfBeginBytes 8, 0x32000008#32), (.evtOnTimer 1 1 500, 0x401101F4#32),
      (.evtRelease 1, 0x41010000#32)],
    decode x.2 = .ok x.1 ∧ encode x.1 = x.2) ∧
  decode 0x02000001#32 = .error (.mustBeZero .f0) ∧ decode 0x05000000#32 = .error (.reservedOp 0x05) ∧
  decode 0x12030002#32 = .error (.mustBeZero .fab1)

/-- R100 to R102, R105, R110: decoding and encoding agree. The word of every command decodes to that command, every
operand at every value, and a legal word is the one word of the command it decodes to, no bit dropped. -/
def Obligations.DecodeEncodeAgree : Prop :=
  (∀ i : Instr, decode (encode i) = .ok i) ∧
  (∀ (w : Word) (i : Instr), decode w = .ok i → encode i = w)

/-- R110: illegal is what matches no row of the opcode map, and writing it while idle raises ILL only. -/
def Obligations.IllegalWord : Prop :=
  (∀ w : Word, legalWord w = false ↔ ∀ r ∈ commandPatterns, w &&& r.2 ≠ r.1) ∧
  (∀ (s : State) (w : Word), s.seq.busy = false → legalWord w = false →
    regWrite 0 w s = { s with status := { s.status with ill := true } })

/-- R103: a legal word written while idle is accepted, RESULT is kept, and the command is not stepped in the cycle
that accepts it (70_reset_and_hazards.md R330). -/
def Obligations.AcceptedCommand : Prop :=
  (∀ (s : State) (w : Word), s.seq.busy = false → legalWord w = true →
    regWrite 0 w s =
      { s with seq := { s.seq with busy := true, cmd := w, fresh := true, phase := 0, cnt := 0 } }) ∧
  (∀ (s t : State) (w : Word), (nextInput s).rst = false → (nextInput s).host = .write 0 w →
    s.seq.busy = false → legalWord w = true → step s = .next t →
    t.seq = { s.seq with busy := true, cmd := w, fresh := true, phase := 0, cnt := 0 } ∧ t.result = s.result)

/-- R104: a write to CMD while busy raises OVR and changes nothing else. -/
def Obligations.WriteWhileBusy : Prop :=
  ∀ (s : State) (w : Word), s.seq.busy = true →
    regWrite 0 w s = { s with status := { s.status with ovr := true } }

/-! ## The host's registers (10_state.md, 20_memory.md) -/

/-- R22, R284: every bit of STATUS as it reads, and what a write to it clears. -/
def Obligations.StatusRegister : Prop :=
  ∀ (s : State) (v : Word),
    (∀ k, (regRead s 3).getLsbD k =
      match k with
      | 0 => s.seq.busy
      | 1 => s.status.ill
      | 2 => s.status.ovr
      | 3 => s.status.argErr
      | 4 => s.status.manErrLo
      | 5 => s.status.manErrHi
      | 6 => s.status.manSentLo
      | 7 => s.status.manSentHi
      | 8 => s.rf.mode == .msg
      | 9 => s.status.rfClamp
      | 10 => s.status.tickLost
      | 11 => s.status.rfLost
      | 12 => s.status.evtLost
      | 13 => decide (0 < s.isrBusy)
      | _ => false) ∧
    regWrite 3 v s = { s with status := { s.status with
      ill := s.status.ill && !v.getLsbD 1, ovr := s.status.ovr && !v.getLsbD 2,
      argErr := s.status.argErr && !v.getLsbD 3, rfClamp := s.status.rfClamp && !v.getLsbD 9,
      tickLost := s.status.tickLost && !v.getLsbD 10, rfLost := s.status.rfLost && !v.getLsbD 11,
      evtLost := s.status.evtLost && !v.getLsbD 12 } }

/-- R23: every bit of INTCON as it reads; a write stores GIE and the IE bits, clears the pending flags it names with
1, sets none, and changes nothing but INTCON. -/
def Obligations.IntconRegister : Prop :=
  ∀ (s : State) (v : Word), s.cfg.nEvt ≤ 8 →
    (∀ k, (regRead s 4).getLsbD k =
      if k = 0 then s.intcon.gie else if k = 1 then s.intcon.ieTick else if k = 2 then s.intcon.ieRf
      else if 8 ≤ k ∧ k < 8 + s.cfg.nEvt then s.intcon.ieEvt.getLsbD (k - 8)
      else if k = 16 then s.intcon.ifTick else if k = 17 then s.intcon.ifRf
      else if 24 ≤ k ∧ k < 24 + s.cfg.nEvt then s.intcon.ifEvt.getLsbD (k - 24)
      else false) ∧
    (∀ k, (regRead (regWrite 4 v s) 4).getLsbD k =
      if k ≤ 2 ∨ (8 ≤ k ∧ k < 8 + s.cfg.nEvt) then v.getLsbD k
      else (regRead s 4).getLsbD k && !v.getLsbD k) ∧
    regWrite 4 v s = { s with intcon := (regWrite 4 v s).intcon }

/-- R74: a reserved or non-existent offset reads 0 and ignores the write. -/
def Obligations.ReservedOffsets : Prop :=
  ∀ (s : State) (widx : BitVec 7) (v : Word),
    ((13 ≤ widx.toNat ∧ widx.toNat ≤ 15) ∨
      (16 ≤ widx.toNat ∧ widx.toNat < 80 ∧
        (s.cfg.nEvt ≤ (widx.toNat - 16) / 8 ∨ 5 ≤ (widx.toNat - 16) % 8)) ∨ 83 ≤ widx.toNat) →
    hostAccess (.read widx) s = { s with readData := some 0 } ∧ hostAccess (.write widx v) s = s

/-- R32, R38, R41: the read-only views of the timers, the receiver and the EVT slots, bit for bit; the prescale
counters are not readable; and no register but CMD, CBARG, STATUS and INTCON takes a write. -/
def Obligations.RegisterViews : Prop :=
  ∀ s : State,
    (regRead s 0 = s.seq.cmd ∧ regRead s 1 = s.cbarg ∧ regRead s 2 = s.result ∧ regRead s 5 = s.tick) ∧
    (regRead s 6 = s.tt.pr ++ s.tt.tmr ∧ regRead s 7 = s.tt.ps ++ 0#15 ++ BitVec.ofBool s.tt.on ∧
      regRead s 11 = s.rt.pr ++ s.rt.tmr ∧ regRead s 12 = s.rt.ps ++ 0#15 ++ BitVec.ofBool s.rt.on) ∧
    regRead s 8 = s.rf.maxBytes ++ s.rf.curByte ++ 0#3 ++ s.rf.numMB ++ 0#2 ++ BitVec.ofBool s.rf.lenpfx ++
      BitVec.ofBool s.rf.lastSample ++ BitVec.ofBool s.rf.sample ++
      (match s.rf.mode with | .pre => 0#3 | .sync => 1#3 | .data => 2#3 | .msg => 3#3 | .idle => 4#3) ∧
    regRead s 9 = s.rf.capBytes ++ s.rf.syncCount ++ s.rf.count ∧
    regRead s 10 = 0#8 ++ s.rf.pin ++ s.rf.manBits ∧
    (∀ k, k < s.cfg.nEvt → k < 8 →
      regRead s (BitVec.ofNat 7 (16 + 8 * k)) = (slotAt s k).t.pr ++ (slotAt s k).t.tmr ∧
      regRead s (BitVec.ofNat 7 (17 + 8 * k)) =
        (slotAt s k).t.ps ++ 0#14 ++ BitVec.ofBool (slotAt s k).used ++ BitVec.ofBool (slotAt s k).t.on ∧
      regRead s (BitVec.ofNat 7 (18 + 8 * k)) = (slotAt s k).count ∧
      regRead s (BitVec.ofNat 7 (19 + 8 * k)) = (slotAt s k).limit ∧
      regRead s (BitVec.ofNat 7 (20 + 8 * k)) = (slotAt s k).cb) ∧
    (∀ p, p < 32 →
      (regRead s 80).getLsbD p = (decide (p < s.cfg.npins) && s.pinDir.getLsbD p) ∧
      (regRead s 81).getLsbD p = (decide (p < s.cfg.npins) && s.pinLat.getLsbD p) ∧
      (regRead s 82).getLsbD p = (decide (p < s.cfg.npins) && s.pinQ.getLsbD p)) ∧
    (∀ (widx : BitVec 7) (v : Half) (k : Nat),
      regRead { s with tt := { s.tt with psc := v }, rt := { s.rt with psc := v } } widx = regRead s widx ∧
      regRead (setSlot k { slotAt s k with t := { (slotAt s k).t with psc := v } } s) widx = regRead s widx) ∧
    (∀ (widx : BitVec 7) (v : Word), widx ≠ 0 → widx ≠ 1 → widx ≠ 3 → widx ≠ 4 → regWrite widx v s = s) ∧
    (∀ v : Word, regWrite 1 v s = { s with cbarg := v })

/-- R71, R75, R330 step 1: a read returns the register's value at the start of the cycle, and a cycle with a read
does what the same cycle without an access does. -/
def Obligations.ReadsHaveNoSideEffect : Prop :=
  ∀ (s : State) (widx : BitVec 7), (nextInput s).rst = false →
    step (withHost (.read widx) s) =
      mapNext (fun t => { t with readData := some (regRead s widx) }) (step (withHost .idle s))

/-! ## Reset and the cycle (70_reset_and_hazards.md) -/

/-- R50, R320, R321: a cycle with `rst = 1` leaves the tabled values and the callback ports 0, and the machine starts
so. That no byte of BUF holds a value afterwards is the model's reading of U6 (log 7), and the number of EVT
slots the machine starts with is the model's choice of parameters (log 1). -/
def Obligations.ResetCycle : Prop :=
  ResetValues State.reset.cfg.nEvt State.reset ∧
  ∀ s : State, (nextInput s).rst = true → ∃ t, step s = .next t ∧ ResetValues s.cfg.nEvt t

/-- R321, R26, R71: after reset, a cycle without reset and without a host write leaves the block as it is. Only the
pads' levels, which are the presented ones where the pin exists, the read data and the model's own cycle
counter and input list (logs 2 to 4) move on. -/
def Obligations.QuiescentAfterReset : Prop :=
  ∀ (c : Config) (n : Nat) (ins : List Input) (q p : BitVec 32) (r : Option Word),
    let s : State :=
      { State.resetWith c with cycle := n, inputs := ins, pinQ := q, pinIn := p, readData := r }
    (nextInput s).rst = false → (∀ widx v, (nextInput s).host ≠ .write widx v) →
    ∃ lv : BitVec 32,
      (∀ k, k < 32 → lv.getLsbD k = (decide (k < c.npins) && (nextInput s).pins.getLsbD k)) ∧
      step s = .next { State.resetWith c with
        cycle := n + 1, inputs := ins.tail, pinQ := lv, pinIn := lv
        readData := match (nextInput s).host with | .read widx => some (regRead s widx) | _ => none }

/-- R25, R26, R71, R295, R330: what a cycle without reset does. First each pad takes its level: 0 where the block drives
the pin low or the pin does not exist, else the presented one (log 3), and the outputs of the last cycle end;
then come the host's access, the timers and INT's dispatch. With a command in progress and no handler charged
for, SEQ runs the command its word decodes to on the state these leave; `isr_busy` counts down and `pin_q`
takes the pads' levels around it. -/
def Obligations.StepRunsTheCommand : Prop :=
  ∀ s : State, (nextInput s).rst = false →
    let inp := nextInput s
    let a := beginCycle inp s
    let h := hostAccess inp.host a
    (a = { s with
      pinIn := a.pinIn, callback := ⟨false, 0, 0⟩, readData := none, cycle := s.cycle + 1, inputs := s.inputs.tail } ∧
      ∀ p, p < 32 → a.pinIn.getLsbD p =
        (decide (p < s.cfg.npins) && inp.pins.getLsbD p && !(s.pinDir.getLsbD p && !s.pinLat.getLsbD p))) ∧
    ((inp.host = .idle → h = a) ∧
      (∀ widx, inp.host = .read widx → h = { a with readData := some (regRead s widx) }) ∧
      (∀ widx v, inp.host = .write widx v → h = regWrite widx v a)) ∧
    beforeSeq s = intDispatch (timersStep h) ∧
    (h.isrBusy = 0 → h.intcon.gie = false → beforeSeq s = .ok (timersStep h)) ∧
    (∀ f, beforeSeq s = .error f → step s = .fault f) ∧
    ∀ s1, beforeSeq s = .ok s1 →
      let counted := { s1 with isrBusy := s1.isrBusy - 1 }
      (s.seq.busy = false ∨ 0 < s1.isrBusy → step s = .next { counted with pinQ := s1.pinIn }) ∧
      (∀ i, s.seq.busy = true → s1.isrBusy = 0 → decode s.seq.cmd = .ok i →
        step s = mapNext (fun t => { t with pinQ := t.pinIn }) (exec i counted))

/-- A word placed where the sequencer fetches (the model's `withFetchWord`, log 6) runs as the command it decodes
to in the very next step. -/
def Obligations.PlacedWordRuns : Prop :=
  ∀ (s : State) (w : Word) (i : Instr), decode w = .ok i →
    let q := placeCommand w s
    let u := isrCountdown (timersStep (beginCycle (nextInput q) q))
    Accepted u ∧ u.seq.cmd = w ∧ step (s.withFetchWord 32 w.toNat) = mapNext endCycle (exec i u)

/-! ## The timers and the interrupts (10_state.md, 60_exceptions.md) -/

/-- R30, R351: a timer just started has its events in the cycles `ps * (pr + 1)`, twice that, and so on. -/
def Obligations.TimerPeriod : Prop :=
  ∀ w ps pr n : Nat, w ≤ 16 → 1 ≤ ps → ps < 65536 → pr < 2 ^ w →
    ((timerStep w (timerAfter w n (startTimer ps pr))).2 = true ↔ (n + 1) % (ps * (pr + 1)) = 0)

/-- R30, R291: every timer steps once a cycle; an event sets its pending flag, enabled or not, and raises the
source's lost bit where the flag was already set; nothing else moves. -/
def Obligations.TimerEvents : Prop :=
  ∀ s : State,
    let w := s.cfg.tmrW
    let t := timersStep s
    t = { s with
      tt := (timerStep w s.tt).1
      rt := (timerStep w s.rt).1
      evt := s.evt.map (fun e => { e with t := (timerStep w e.t).1 })
      status := { s.status with
        tickLost := s.status.tickLost || ((timerStep w s.tt).2 && s.intcon.ifTick)
        rfLost := s.status.rfLost || ((timerStep w s.rt).2 && s.intcon.ifRf)
        evtLost := t.status.evtLost }
      intcon := { s.intcon with
        ifTick := s.intcon.ifTick || (timerStep w s.tt).2
        ifRf := s.intcon.ifRf || (timerStep w s.rt).2
        ifEvt := t.intcon.ifEvt } } ∧
    (∀ k, k < 8 → t.intcon.ifEvt.getLsbD k =
      (s.intcon.ifEvt.getLsbD k || (decide (k < s.evt.length) && (timerStep w (slotAt s k).t).2))) ∧
    (t.status.evtLost = true ↔ s.status.evtLost = true ∨
      ∃ k, k < 8 ∧ k < s.evt.length ∧ (timerStep w (slotAt s k).t).2 = true ∧ s.intcon.ifEvt.getLsbD k = true)

/-- R292: of the ready sources the one with the lowest number is served, and the others stay pending. -/
def Obligations.Priority : Prop :=
  ∀ (s t : State) (src : IntSource), s.isrBusy = 0 → src ∈ sources s.cfg → isReady s src = true →
    (∀ x ∈ sources s.cfg, isReady s x = true → sourceNumber src ≤ sourceNumber x) → intDispatch s = .ok t →
    (∃ u, handlerOf src (clearPending src s) = .ok u ∧ t = { u with isrBusy := isrCycles s.cfg src }) ∧
    pending t src = false ∧ ∀ x ∈ sources s.cfg, x ≠ src → pending t x = pending s x

/-- R295: the INT step. No source is served while a handler is charged for or none is ready; serving one runs its
handler in this cycle and charges its cost; SEQ does not step while `isr_busy` is positive, and continues
exactly where it was. -/
def Obligations.IntStep : Prop :=
  ∀ s : State,
    (s.isrBusy ≠ 0 ∨ readySource s = none → intDispatch s = .ok s) ∧
    (∀ src u, s.isrBusy = 0 → readySource s = some src → handlerOf src (clearPending src s) = .ok u →
      intDispatch s = .ok { u with isrBusy := isrCycles s.cfg src }) ∧
    (∀ wasBusy, 0 < s.isrBusy →
      afterInt wasBusy s = .next { s with isrBusy := s.isrBusy - 1, pinQ := s.pinIn }) ∧
    (∀ i, s.isrBusy = 0 → decode s.seq.cmd = .ok i → afterInt true s = mapNext endCycle (exec i s))

/-- R296: the TICK handler adds one to `tick`, modulo 2^32, and writes nothing else. -/
def Obligations.TickHandler : Prop :=
  ∀ s : State, handlerOf .tick s = .ok { s with tick := BitVec.ofNat 32 ((s.tick.toNat + 1) % 2 ^ 32) }

/-- R31: `TimerFit` gives the smallest divisor of an ascending list whose quotient fits, and where none does the
last divisor with the period cut to the timer's width. -/
def Obligations.TimerFit : Prop :=
  ∀ (c : Config) (C : Nat), c.TimersValid → 1 ≤ C →
    let f := timerFit c C
    (f.fits = true ↔ ∃ ps ∈ c.psSet, 1 ≤ C / ps ∧ C / ps ≤ 2 ^ c.tmrW) ∧
    (f.fits = true → f.ps ∈ c.psSet ∧ 1 ≤ C / f.ps ∧ C / f.ps ≤ 2 ^ c.tmrW ∧ f.pr = C / f.ps - 1 ∧
      ∀ ps ∈ c.psSet, ps < f.ps → ¬ (1 ≤ C / ps ∧ C / ps ≤ 2 ^ c.tmrW)) ∧
    (f.fits = false → f.ps ∈ c.psSet ∧ (∀ ps ∈ c.psSet, ps ≤ f.ps) ∧
      (f.ps ≤ C → f.pr = (C / f.ps - 1) % 2 ^ c.tmrW))

/-- R262: `EvtFit`. Where one unit fits it is one EVT tick; else, at the last divisor, `K` ticks are a unit, `K` the
smallest from `Kmin` on that divides it exactly, or `Kmin` where none does. -/
def Obligations.EvtFit : Prop :=
  ∀ (c : Config) (C : Nat), c.TimersValid → 1 ≤ C →
    ((timerFit c C).fits = true → evtFit c C = ⟨(timerFit c C).ps, (timerFit c C).pr, 1⟩) ∧
    ((timerFit c C).fits = false → (timerFit c C).ps ≤ C →
      let ps := (timerFit c C).ps
      let kmin := (C + ps * 2 ^ c.tmrW - 1) / (ps * 2 ^ c.tmrW)
      let e := evtFit c C
      e.ps = ps ∧ kmin ≤ e.k ∧ e.pr + 1 = C / (ps * e.k) ∧ e.pr < 2 ^ c.tmrW ∧
      ((∃ k, kmin ≤ k ∧ k ≤ C / ps ∧ C % (ps * k) = 0) →
        C % (ps * e.k) = 0 ∧ ∀ k, kmin ≤ k → k < e.k → C % (ps * k) ≠ 0) ∧
      ((¬ ∃ k, kmin ≤ k ∧ k ≤ C / ps ∧ C % (ps * k) = 0) → e.k = kmin))

/-! ## TICK and DLY (40_tick_delay.md) -/

/-- R130, R132, R133: `NOP` gives 0, `MILLIS` the counter, `MICROS` the counter extrapolated by the timer. -/
def Obligations.TickReads : Prop :=
  ∀ s : State, Accepted s →
    exec .nop s = .next { s with result := 0, seq := completed s.seq 1 } ∧
    exec .millis s = .next { s with result := s.tick, seq := completed s.seq 1 } ∧
    exec .micros s = .next { s with
      result := BitVec.ofNat 32
        ((s.tick.toNat * 1000 + s.tt.tmr.toNat * 1000 / (s.tt.pr.toNat + 1)) % 2 ^ 32)
      seq := completed s.seq 1 }

/-- R131: `MILLIS_INIT` starts the TICK timer with the period of one millisecond, zeroes `tick`, discards a pending
tick and enables the source. -/
def Obligations.MillisInit : Prop :=
  ∀ s : State, Accepted s →
    exec .millisInit s = .next { s with
      tt := ⟨true, BitVec.ofNat 16 (timerFit s.cfg (s.cfg.fClk / 1000)).ps, 0, 0,
        BitVec.ofNat 16 (timerFit s.cfg (s.cfg.fClk / 1000)).pr⟩
      tick := 0
      intcon := { s.intcon with ifTick := false, ieTick := true }
      result := 0
      seq := completed s.seq 1 }

/-- R141, R142, R25: the cycles of `DELAYUS` and `DELAYMS`, phase by phase, and the countdown of any command's
dwell. -/
def Obligations.DelayCycles : Prop :=
  ∀ (s : State) (n : Half),
    (∀ i, s.seq.busy = true → s.seq.fresh = false → s.seq.cnt ≠ 0 →
      exec i s = .next { s with seq := { s.seq with cnt := s.seq.cnt - 1 } }) ∧
    (Accepted s → cyc s.cfg n.toNat = 0 →
      exec (.delayUs n) s = .next { s with result := 0, seq := completed s.seq 1 }) ∧
    (Accepted s → 0 < cyc s.cfg n.toNat →
      exec (.delayUs n) s = .next { s with seq := inPhase s.seq 0 (cyc s.cfg n.toNat) }) ∧
    (PhaseOver s 0 → exec (.delayUs n) s = .next { s with result := 0, seq := completed s.seq 1 }) ∧
    (Accepted s → n = 0 → exec (.delayMs n) s = .next { s with result := 0, seq := completed s.seq 0 }) ∧
    (Accepted s → n ≠ 0 → 0 < s.cfg.dlyMsOvh →
      exec (.delayMs n) s = .next { s with seq := inPhase s.seq 0 s.cfg.dlyMsOvh }) ∧
    (Accepted s → n ≠ 0 → s.cfg.dlyMsOvh = 0 → 0 < cyc s.cfg 1000 →
      exec (.delayMs n) s = .next { s with seq := inPhase s.seq 1 (cyc s.cfg 1000) }) ∧
    (∀ k, k < n.toNat → PhaseOver s (2 * k) → 0 < cyc s.cfg 1000 →
      exec (.delayMs n) s = .next { s with seq := inPhase s.seq (2 * k + 1) (cyc s.cfg 1000) }) ∧
    (∀ k, k + 1 < n.toNat → PhaseOver s (2 * k + 1) → 0 < s.cfg.dlyMsOvh →
      exec (.delayMs n) s = .next { s with seq := inPhase s.seq (2 * k + 2) s.cfg.dlyMsOvh }) ∧
    (∀ k, k + 1 < n.toNat → PhaseOver s (2 * k + 1) → s.cfg.dlyMsOvh = 0 → 0 < cyc s.cfg 1000 →
      exec (.delayMs n) s = .next { s with seq := inPhase s.seq (2 * k + 3) (cyc s.cfg 1000) }) ∧
    (∀ k, k + 1 = n.toNat → PhaseOver s (2 * k + 1) →
      exec (.delayMs n) s = .next { s with result := 0, seq := completed s.seq (2 * n.toNat) })

/-- R141, R350: `DELAYUS n` is busy for `cyc(n)` cycles after its acceptance and completes in the next, for every
`n`, 0 among them. -/
def Obligations.DelayUsDuration : Prop :=
  ∀ (s : State) (n : Half), Accepted s → s.cfg.DwellsFit →
    (∀ m, 0 < m → m ≤ cyc s.cfg n.toNat →
      execTimes (.delayUs n) m s = .next { s with seq := dwelling s.seq 0 (cyc s.cfg n.toNat - m) }) ∧
    execTimes (.delayUs n) (cyc s.cfg n.toNat + 1) s =
      .next { s with result := 0, seq := completed s.seq 1 }

/-- R142, R350: `DELAYMS n` is busy for `n * (DLY_MS_OVH + cyc(1000))` cycles and completes in the next. -/
def Obligations.DelayMsDuration : Prop :=
  ∀ (s : State) (n : Half), Accepted s → s.cfg.DwellsFit →
    (∀ m, 0 < m → m ≤ n.toNat * (s.cfg.dlyMsOvh + cyc s.cfg 1000) →
      ∃ q, execTimes (.delayMs n) m s = .next { s with seq := q } ∧ q.busy = true) ∧
    execTimes (.delayMs n) (n.toNat * (s.cfg.dlyMsOvh + cyc s.cfg 1000) + 1) s =
      .next { s with result := 0, seq := completed s.seq (2 * n.toNat) }

/-- R143, R345: a delay is a lower bound whatever the host, the pins and the interrupts do: in every cycle before
`n` microseconds (milliseconds) have passed, reset apart, the command is still in progress. -/
def Obligations.DelaysAreLowerBounds : Prop :=
  ∀ (s t : State) (n : Half) (m : Nat), Accepted s → s.cfg.ClockValid → s.cfg.DwellsFit →
    (∀ x ∈ s.inputs.take m, x.rst = false) → stepTimes m s = .next t →
    (decode s.seq.cmd = .ok (.delayUs n) → m ≤ n.toNat * cycPerUs s.cfg → t.seq.busy = true) ∧
    (decode s.seq.cmd = .ok (.delayMs n) → m ≤ n.toNat * (1000 * cycPerUs s.cfg) → t.seq.busy = true)

/-! ## OW (41_onewire.md) -/

/-- R165: the cycles of `OW_RESET`: its entry, each phase's pin action, and its completion. -/
def Obligations.OwResetCycles : Prop :=
  ∀ (s : State) (pin : Byte), pinUsable s.cfg pin = true →
    let c := s.cfg
    let p := pin.toNat
    (Accepted s → 0 < cyc c c.timeG →
      exec (.owReset pin) s = .next { s with seq := inPhase s.seq 0 (cyc c c.timeG) }) ∧
    (Accepted s → cyc c c.timeG = 0 → 0 < cyc c c.timeH →
      exec (.owReset pin) s = .next { s with
        pinLat := setBit s.pinLat p false, pinDir := setBit s.pinDir p true,
        seq := inPhase s.seq 1 (cyc c c.timeH) }) ∧
    (PhaseOver s 0 → 0 < cyc c c.timeH →
      exec (.owReset pin) s = .next { s with
        pinLat := setBit s.pinLat p false, pinDir := setBit s.pinDir p true,
        seq := inPhase s.seq 1 (cyc c c.timeH) }) ∧
    (PhaseOver s 1 → 0 < cyc c c.timeI →
      exec (.owReset pin) s = .next { s with
        pinDir := setBit s.pinDir p false, seq := inPhase s.seq 2 (cyc c c.timeI) }) ∧
    (PhaseOver s 2 → 0 < cyc c c.timeJ →
      exec (.owReset pin) s = .next { s with
        seq := { inPhase s.seq 3 (cyc c c.timeJ) with acc := if s.pinIn.getLsbD p then 1 else 0 } }) ∧
    (PhaseOver s 3 →
      exec (.owReset pin) s = .next { s with
        result := if s.seq.acc.getLsbD 0 then 1 else 0, seq := completed s.seq 4 })

/-- R166, R167: the cycles of `OW_WRITEBIT` and `OW_READBIT`. -/
def Obligations.OwBitCycles : Prop :=
  ∀ (s : State) (pin : Byte) (b : BitVec 1), pinUsable s.cfg pin = true →
    let c := s.cfg
    let p := pin.toNat
    let low := if b = 1 then cyc c c.timeA else cyc c c.timeC
    let rest := if b = 1 then cyc c c.timeB else cyc c c.timeD
    (Accepted s → 0 < low →
      exec (.owWriteBit pin b) s = .next { s with
        pinLat := setBit s.pinLat p false, pinDir := setBit s.pinDir p true, seq := inPhase s.seq 0 low }) ∧
    (PhaseOver s 0 → 0 < rest →
      exec (.owWriteBit pin b) s = .next { s with
        pinDir := setBit s.pinDir p false, seq := inPhase s.seq 1 rest }) ∧
    (PhaseOver s 1 →
      exec (.owWriteBit pin b) s = .next { s with result := 0, seq := completed s.seq 2 }) ∧
    (Accepted s → 0 < cyc c c.timeA →
      exec (.owReadBit pin) s = .next { s with
        pinLat := setBit s.pinLat p false, pinDir := setBit s.pinDir p true,
        seq := inPhase s.seq 0 (cyc c c.timeA) }) ∧
    (PhaseOver s 0 → 0 < cyc c c.timeE →
      exec (.owReadBit pin) s = .next { s with
        pinDir := setBit s.pinDir p false, seq := inPhase s.seq 1 (cyc c c.timeE) }) ∧
    (PhaseOver s 1 → 0 < cyc c c.timeF →
      exec (.owReadBit pin) s = .next { s with
        seq := { inPhase s.seq 2 (cyc c c.timeF) with acc := if s.pinIn.getLsbD p then 1 else 0 } }) ∧
    (PhaseOver s 2 →
      exec (.owReadBit pin) s = .next { s with
        result := if s.seq.acc.getLsbD 0 then 1 else 0, seq := completed s.seq 3 })

/-- R170: the cycles of `OW_WRITEBYTE`: slot `i` shifts the mask up from 0x01 and sends the bit of `v` under it. -/
def Obligations.OwWriteByteCycles : Prop :=
  ∀ (s : State) (pin v : Byte), pinUsable s.cfg pin = true →
    let c := s.cfg
    let p := pin.toNat
    let low := fun m : Byte => if v &&& m ≠ 0 then cyc c c.timeA else cyc c c.timeC
    let rest := if v &&& s.seq.mask ≠ 0 then cyc c c.timeB else cyc c c.timeD
    let slot := fun (k : Nat) (m : Byte) => { s with
      pinLat := setBit s.pinLat p false, pinDir := setBit s.pinDir p true,
      seq := { inPhase s.seq k (low m) with mask := m } }
    (Accepted s → 0 < low 1 → exec (.owWriteByte pin v) s = .next (slot 0 1)) ∧
    (∀ i, i < 8 → PhaseOver s (3 * i) → 0 < rest →
      exec (.owWriteByte pin v) s = .next { s with
        pinDir := setBit s.pinDir p false, seq := inPhase s.seq (3 * i + 1) rest }) ∧
    (∀ i, i < 7 → PhaseOver s (3 * i + 1) → 0 < c.owGapCyc →
      exec (.owWriteByte pin v) s = .next { s with seq := inPhase s.seq (3 * i + 2) c.owGapCyc }) ∧
    (∀ i, i < 7 → PhaseOver s (3 * i + 1) → c.owGapCyc = 0 → 0 < low (s.seq.mask <<< 1) →
      exec (.owWriteByte pin v) s = .next (slot (3 * i + 3) (s.seq.mask <<< 1))) ∧
    (∀ i, i < 7 → PhaseOver s (3 * i + 2) → 0 < low (s.seq.mask <<< 1) →
      exec (.owWriteByte pin v) s = .next (slot (3 * i + 3) (s.seq.mask <<< 1))) ∧
    (PhaseOver s 22 →
      exec (.owWriteByte pin v) s = .next { s with result := 0, seq := completed s.seq 24 })

/-- R172: the cycles of `OW_READBYTE`: slot `i` shifts the mask up from 0x01 and a sampled 1 sets the bit under it. -/
def Obligations.OwReadByteCycles : Prop :=
  ∀ (s : State) (pin : Byte), pinUsable s.cfg pin = true →
    let c := s.cfg
    let p := pin.toNat
    let slot := fun (k : Nat) (m a : Byte) => { s with
      pinLat := setBit s.pinLat p false, pinDir := setBit s.pinDir p true,
      seq := { inPhase s.seq k (cyc c c.timeA) with mask := m, acc := a } }
    (Accepted s → 0 < cyc c c.timeA → exec (.owReadByte pin) s = .next (slot 0 1 0)) ∧
    (∀ i, i < 8 → PhaseOver s (4 * i) → 0 < cyc c c.timeE →
      exec (.owReadByte pin) s = .next { s with
        pinDir := setBit s.pinDir p false, seq := inPhase s.seq (4 * i + 1) (cyc c c.timeE) }) ∧
    (∀ i, i < 8 → PhaseOver s (4 * i + 1) → 0 < cyc c c.timeF →
      exec (.owReadByte pin) s = .next { s with
        seq := { inPhase s.seq (4 * i + 2) (cyc c c.timeF) with
          acc := if s.pinIn.getLsbD p then s.seq.acc ||| s.seq.mask else s.seq.acc } }) ∧
    (∀ i, i < 7 → PhaseOver s (4 * i + 2) → 0 < c.owGapCyc →
      exec (.owReadByte pin) s = .next { s with seq := inPhase s.seq (4 * i + 3) c.owGapCyc }) ∧
    (∀ i, i < 7 → PhaseOver s (4 * i + 2) → c.owGapCyc = 0 → 0 < cyc c c.timeA →
      exec (.owReadByte pin) s = .next (slot (4 * i + 4) (s.seq.mask <<< 1) s.seq.acc)) ∧
    (∀ i, i < 7 → PhaseOver s (4 * i + 3) → 0 < cyc c c.timeA →
      exec (.owReadByte pin) s = .next (slot (4 * i + 4) (s.seq.mask <<< 1) s.seq.acc)) ∧
    (PhaseOver s 30 →
      exec (.owReadByte pin) s = .next { s with
        result := s.seq.acc.setWidth 32, seq := completed s.seq 32 })

/-- R177: the event trace of the bit-level commands, every time of the table in clock cycles from the cycle in which
phase 0 is entered (offset 0), waits of 0 cycles among them; `lv m` is the pads' levels at offset `m`. -/
def Obligations.OwEventTrace : Prop :=
  ∀ (s : State) (pin : Byte) (lv : Nat → BitVec 32), Accepted s → pinUsable s.cfg pin = true →
    s.cfg.DwellsFit → s.cfg.OneWireValid →
    let c := s.cfg
    let p := pin.toNat
    let A := cyc c c.timeA
    let E := cyc c c.timeE
    let F := cyc c c.timeF
    let G := cyc c c.timeG
    let H := cyc c c.timeH
    let I := cyc c c.timeI
    let J := cyc c c.timeJ
    let low := pinDriveLow p s
    let rel := pinRelease p (pinDriveLow p s)
    let bit := fun n : Nat => if (lv n).getLsbD p then (1 : Byte) else 0
    (∀ m, 0 < m → m ≤ G → execLevels (.owReset pin) lv m s =
      .next { s with pinIn := lv (m - 1), seq := dwelling s.seq 0 (G - m) }) ∧
    (∀ m, G < m → m ≤ G + H → execLevels (.owReset pin) lv m s =
      .next { low with pinIn := lv (m - 1), seq := dwelling s.seq 1 (G + H - m) }) ∧
    (∀ m, G + H < m → m ≤ G + H + I → execLevels (.owReset pin) lv m s =
      .next { rel with pinIn := lv (m - 1), seq := dwelling s.seq 2 (G + H + I - m) }) ∧
    (∀ m, G + H + I < m → m ≤ G + H + I + J → execLevels (.owReset pin) lv m s =
      .next { rel with
        pinIn := lv (m - 1)
        seq := { dwelling s.seq 3 (G + H + I + J - m) with acc := bit (G + H + I) } }) ∧
    execLevels (.owReset pin) lv (G + H + I + J + 1) s =
      .next { rel with
        pinIn := lv (G + H + I + J)
        result := (bit (G + H + I)).setWidth 32
        seq := { completed s.seq 4 with acc := bit (G + H + I) } } ∧
    (∀ b : BitVec 1,
      let L := if b = 1 then A else cyc c c.timeC
      let R := if b = 1 then cyc c c.timeB else cyc c c.timeD
      (∀ m, 0 < m → m ≤ L → execLevels (.owWriteBit pin b) lv m s =
        .next { low with pinIn := lv (m - 1), seq := dwelling s.seq 0 (L - m) }) ∧
      (∀ m, L < m → m ≤ L + R → execLevels (.owWriteBit pin b) lv m s =
        .next { rel with pinIn := lv (m - 1), seq := dwelling s.seq 1 (L + R - m) }) ∧
      execLevels (.owWriteBit pin b) lv (L + R + 1) s =
        .next { rel with pinIn := lv (L + R), result := 0, seq := completed s.seq 2 }) ∧
    (∀ m, 0 < m → m ≤ A → execLevels (.owReadBit pin) lv m s =
      .next { low with pinIn := lv (m - 1), seq := dwelling s.seq 0 (A - m) }) ∧
    (∀ m, A < m → m ≤ A + E → execLevels (.owReadBit pin) lv m s =
      .next { rel with pinIn := lv (m - 1), seq := dwelling s.seq 1 (A + E - m) }) ∧
    (∀ m, A + E < m → m ≤ A + E + F → execLevels (.owReadBit pin) lv m s =
      .next { rel with
        pinIn := lv (m - 1), seq := { dwelling s.seq 2 (A + E + F - m) with acc := bit (A + E) } }) ∧
    execLevels (.owReadBit pin) lv (A + E + F + 1) s =
      .next { rel with
        pinIn := lv (A + E + F), result := (bit (A + E)).setWidth 32,
        seq := { completed s.seq 3 with acc := bit (A + E) } }

/-- R170, R77: `OW_WRITEBYTE` sends eight write slots, slot `i` carrying bit `i` of the byte, least significant first:
low for the bit's low time, released for its rest and the gap. -/
def Obligations.OwWriteByteTrace : Prop :=
  ∀ (s : State) (pin v : Byte) (lv : Nat → BitVec 32), Accepted s → pinUsable s.cfg pin = true →
    s.cfg.DwellsFit → s.cfg.OneWireValid →
    let c := s.cfg
    let p := pin.toNat
    let start := writeSlotStart c v
    (∀ i m, i < 8 → start i < m → m ≤ start i + writeLow c (v.getLsbD i) →
      execLevels (.owWriteByte pin v) lv m s = .next { pinDriveLow p s with
        pinIn := lv (m - 1)
        seq := { dwelling s.seq (3 * i) (start i + writeLow c (v.getLsbD i) - m) with mask := 1#8 <<< i } }) ∧
    (∀ i m, i < 8 → start i + writeLow c (v.getLsbD i) < m → m ≤ start (i + 1) →
      ∃ k r, (k = 3 * i + 1 ∨ k = 3 * i + 2) ∧
        execLevels (.owWriteByte pin v) lv m s = .next { pinRelease p (pinDriveLow p s) with
          pinIn := lv (m - 1), seq := { dwelling s.seq k r with mask := 1#8 <<< i } }) ∧
    execLevels (.owWriteByte pin v) lv (start 8 + 1) s = .next { pinRelease p (pinDriveLow p s) with
      pinIn := lv (start 8), result := 0, seq := { completed s.seq 24 with mask := 0x80 } }

/-- R172, R77: `OW_READBYTE` samples eight read slots, the pin low for `TimeA` of each and released for the rest of it
and for the gap after it; the level at the sample of slot `i` is bit `i` of the result. -/
def Obligations.OwReadByteTrace : Prop :=
  ∀ (s : State) (pin : Byte) (lv : Nat → BitVec 32), Accepted s → pinUsable s.cfg pin = true →
    s.cfg.DwellsFit → s.cfg.OneWireValid →
    let c := s.cfg
    let p := pin.toNat
    let start := readSlotStart c
    let A := cyc c c.timeA
    let E := cyc c c.timeE
    let F := cyc c c.timeF
    (∀ i m, i < 8 → start i < m → m ≤ start i + A →
      ∃ q, execLevels (.owReadByte pin) lv m s = .next { pinDriveLow p s with
        pinIn := lv (m - 1), seq := q } ∧ q.busy = true ∧ q.phase = BitVec.ofNat 32 (4 * i)) ∧
    (∀ i m, i < 8 → start i + A < m → m ≤ start i + A + E + F →
      ∃ q, execLevels (.owReadByte pin) lv m s = .next { pinRelease p (pinDriveLow p s) with
        pinIn := lv (m - 1), seq := q } ∧ q.busy = true) ∧
    (∀ i m, i < 7 → start i + A + E + F < m → m ≤ start (i + 1) →
      ∃ q, execLevels (.owReadByte pin) lv m s = .next { pinRelease p (pinDriveLow p s) with
        pinIn := lv (m - 1), seq := q } ∧ q.busy = true ∧ q.phase = BitVec.ofNat 32 (4 * i + 3)) ∧
    ∃ r : Byte, (∀ i, i < 8 → r.getLsbD i = (lv (start i + A + E)).getLsbD p) ∧
      execLevels (.owReadByte pin) lv (start 7 + A + E + F + 1) s =
        .next { pinRelease p (pinDriveLow p s) with
          pinIn := lv (start 7 + A + E + F), result := r.setWidth 32,
          seq := { completed s.seq 32 with mask := 0x80, acc := r } }

/-- R112, R163: a command that cannot use its operands completes in its first phase with ARGERR and the result
0xFFFFFFFF (2 for the EVT commands), and changes nothing else. -/
def Obligations.RefusedOperands : Prop :=
  ∀ s : State, Accepted s →
    let refused := fun r : Word => Host.Outcome.next (φ := Fault) (ρ := Refusal)
      { s with result := r, status := { s.status with argErr := true }, seq := completed s.seq 1 }
    (∀ pin : Byte, s.cfg.npins ≤ pin.toNat →
      exec (.owReset pin) s = refused 0xFFFFFFFF ∧ exec (.owReadBit pin) s = refused 0xFFFFFFFF ∧
      (∀ b, exec (.owWriteBit pin b) s = refused 0xFFFFFFFF) ∧
      exec (.owReadByte pin) s = refused 0xFFFFFFFF ∧ ∀ v, exec (.owWriteByte pin v) s = refused 0xFFFFFFFF) ∧
    (∀ (pin : Byte) (baud : Half),
      s.cfg.npins ≤ pin.toNat ∨ baud = 0 ∨ s.cfg.fClk / (2 * baud.toNat) = 0 ∨
        (timerFit s.cfg (s.cfg.fClk / (2 * baud.toNat))).fits = false →
      exec (.rfInit pin baud) s = refused 0xFFFFFFFF) ∧
    (∀ m : Byte, m = 0 ∨ s.cfg.rfBufCap < m.toNat → exec (.rfBeginBytes m) s = refused 0xFFFFFFFF) ∧
    (∀ i : Byte, s.cfg.rfBufCap ≤ i.toNat → exec (.rfRdBuf i) s = refused 0xFFFFFFFF) ∧
    (∀ (slot : BitVec 4) (u : BitVec 2) (d : Half), s.cfg.nEvt ≤ slot.toNat ∨ u = 3 →
      exec (.evtOnTimer slot u d) s = refused 2) ∧
    (∀ slot : BitVec 4, s.cfg.nEvt ≤ slot.toNat → exec (.evtRelease slot) s = refused 2)

/-! ## MAN (42_manchester.md) -/

/-- R191, R78: `MAN_ENCODE` gives each data bit its group, 01 for a 1 and 10 for a 0, the low nibble in the low byte,
and leaves the MAN bits as they were. -/
def Obligations.ManEncode : Prop :=
  ∀ (s : State) (b : Byte), Accepted s →
    ∃ r : Word, exec (.manEncode b) s = .next { s with result := r, seq := completed s.seq 1 } ∧
      r.extractLsb' 16 16 = 0#16 ∧
      ∀ k, k < 4 →
        r.extractLsb' (2 * k) 2 = (if b.getLsbD k then 0b01#2 else 0b10#2) ∧
        r.extractLsb' (8 + 2 * k) 2 = (if b.getLsbD (k + 4) then 0b01#2 else 0b10#2)

/-- R193, R194, R198, R199: `MAN_NIBBLER` returns the sentinel 0xF0 for itself, the nibble of the table for a legal
byte and 0xFF for every other byte, those with a group 00 or 11, and says so in the MAN bits. -/
def Obligations.ManNibbler : Prop :=
  (∀ (s : State) (c : Byte), Accepted s →
    exec (.manNibbler c) s = .next { s with
      result := (nibbleOf c).setWidth 32
      status := { s.status with
        manErrLo := decide (nibbleOf c = 0xFF), manErrHi := false,
        manSentLo := decide (c = 0xF0), manSentHi := false }
      seq := completed s.seq 1 }) ∧
  (∀ c : Byte, nib c = nibbleOf c) ∧
  (∀ (c : Byte) (k : Nat), c ≠ 0xF0 → k < 4 →
    c.extractLsb' (2 * k) 2 = 0b00#2 ∨ c.extractLsb' (2 * k) 2 = 0b11#2 → nib c = 0xFF) ∧
  nib 0xF0 = 0xF0

/-- R195: `MAN_DECODE` combines the nibble of `in[1]`, shifted up in 8 bits, with that of `in[0]`, and writes the four
MAN bits. -/
def Obligations.ManDecode : Prop :=
  ∀ (s : State) (in1 in0 : Byte), Accepted s →
    exec (.manDecode in1 in0) s = .next { s with
      result := BitVec.ofNat 32 (((nib in1).toNat * 16) % 256 ||| (nib in0).toNat)
      status := { s.status with
        manErrLo := decide (nib in0 = 0xFF), manErrHi := decide (nib in1 = 0xFF),
        manSentLo := decide (in0 = 0xF0), manSentHi := decide (in1 = 0xF0) }
      seq := completed s.seq 1 }

/-- R197: decoding what encoding a byte returned gives the byte, with the four MAN bits 0. -/
def Obligations.ManRoundTrip : Prop :=
  ∀ (s t u : State) (b : Byte), Accepted s → Accepted u → exec (.manEncode b) s = .next t →
    exec (.manDecode (t.result.extractLsb' 8 8) (t.result.extractLsb' 0 8)) u = .next { u with
      result := b.setWidth 32
      status := { u.status with manErrLo := false, manErrHi := false, manSentLo := false, manSentHi := false }
      seq := completed u.seq 1 }

/-! ## RF (43_rf433.md) -/

/-- R211: `RF_INIT` on usable operands releases the pin, empties the record, starts the RF timer with half a bit
period and enables its source; BUF is not cleared. -/
def Obligations.RfInit : Prop :=
  ∀ (s : State) (pin : Byte) (baud : Half), Accepted s →
    let f := timerFit s.cfg (s.cfg.fClk / (2 * baud.toNat))
    pin.toNat < s.cfg.npins → baud ≠ 0 → s.cfg.fClk / (2 * baud.toNat) ≠ 0 → f.fits = true →
    exec (.rfInit pin baud) s = .next { s with
      pinDir := setBit s.pinDir pin.toNat false
      rf := ⟨pin, false, false, 0, 0, .idle, 0, 0, 0, 0, 0, false⟩
      rt := ⟨true, BitVec.ofNat 16 f.ps, 0, 0, BitVec.ofNat 16 f.pr⟩
      intcon := { s.intcon with ifRf := false, ieRf := true }
      result := 0
      seq := completed s.seq 1 }

/-- R213, R214, R215, R217: arming the receiver, asking whether a frame is complete, and stopping it. -/
def Obligations.RfControl : Prop :=
  ∀ s : State, Accepted s →
    let arm := fun (m : Byte) (l : Bool) => { s with
      rf := { s.rf with
        capBytes := m, maxBytes := m, lenpfx := l, manBits := 0, numMB := 0, curByte := 0, mode := .pre }
      result := 0
      seq := completed s.seq 1 }
    exec .rfBegin s = .next (arm 2 false) ∧
    (∀ m : Byte, m ≠ 0 → m.toNat ≤ s.cfg.rfBufCap → exec (.rfBeginBytes m) s = .next (arm m true)) ∧
    exec .rfComplete s = .next { s with
      result := if s.rf.mode = .msg then 1 else 0, seq := completed s.seq 1 } ∧
    exec .rfStop s = .next { s with rf := { s.rf with mode := .idle }, result := 0, seq := completed s.seq 1 }

/-- R216, R218, U6: `RF_GETMSG` returns the first two bytes, the first in bits 15:8, and `RF_RDBUF` one byte; a byte
that nothing has stored since reset is the named error `BufUnwritten` (log 7). -/
def Obligations.RfReads : Prop :=
  ∀ s : State, Accepted s →
    (∀ b0 b1, 2 ≤ s.cfg.rfBufCap → bufByte s 0 = some b0 → bufByte s 1 = some b1 →
      exec .rfGetMsg s = .next { s with result := 0#16 ++ b0 ++ b1, seq := completed s.seq 1 }) ∧
    (2 ≤ s.cfg.rfBufCap → bufByte s 0 = none → exec .rfGetMsg s = .fault (.bufUnwritten 0)) ∧
    (∀ b0, 2 ≤ s.cfg.rfBufCap → bufByte s 0 = some b0 → bufByte s 1 = none →
      exec .rfGetMsg s = .fault (.bufUnwritten 1)) ∧
    (∀ (i b : Byte), i.toNat < s.cfg.rfBufCap → bufByte s i.toNat = some b →
      exec (.rfRdBuf i) s = .next { s with result := b.setWidth 32, seq := completed s.seq 1 }) ∧
    (∀ i : Byte, i.toNat < s.cfg.rfBufCap → bufByte s i.toNat = none →
      exec (.rfRdBuf i) s = .fault (.bufUnwritten i.toNat))

/-- R219, R220, R228: in MSG and IDLE an RF tick does nothing; in the other modes, a tick whose accepted sample is the
last one recorded only counts, saturating at 0xFFFF, and a sample is accepted only where the levels of two
consecutive cycles agree. -/
def Obligations.RfDebounce : Prop :=
  ∀ s : State,
    (s.rf.mode = .msg ∨ s.rf.mode = .idle → rfHandler s = .ok s) ∧
    (s.rf.mode ≠ .msg → s.rf.mode ≠ .idle → acceptedSample s = s.rf.lastSample →
      rfHandler s = .ok { s with rf := { s.rf with count := tickCount s, sample := s.rf.lastSample } })

/-- R222: mode PRE at a transition: to 1, the counters restart and the mode is SYNC; to 0, it is only recorded. -/
def Obligations.RfPre : Prop :=
  ∀ s : State, s.rf.mode = .pre → acceptedSample s ≠ s.rf.lastSample →
    (acceptedSample s = true →
      rfHandler s = .ok { s with rf := { s.rf with
        sample := true, lastSample := true, count := 0, syncCount := 0, mode := .sync } }) ∧
    (acceptedSample s = false →
      rfHandler s = .ok { s with rf := { s.rf with
        sample := false, lastSample := false, count := tickCount s } })

/-- R223: mode SYNC at a transition, by the length of the pulse that ended, classed by R221's formula. (The class of the
saturated count where `MaxLongCount` is 65535 is the model's choice, log 21.) -/
def Obligations.RfSync : Prop :=
  ∀ s : State, s.rf.mode = .sync → acceptedSample s ≠ s.rf.lastSample →
    let c := s.cfg
    let n := tickCount s
    let x := acceptedSample s
    let abort := { s with rf := { s.rf with sample := x, lastSample := x, count := n, mode := .pre } }
    (¬ IsShort c n → ¬ IsLong c n → rfHandler s = .ok abort) ∧
    (IsShort c n →
      rfHandler s = .ok { s with rf := { s.rf with
        sample := x, lastSample := x, count := 0, syncCount := s.rf.syncCount + 1
        mode := if 2 * c.syncPulseMax < (s.rf.syncCount + 1).toNat then .pre else .sync } }) ∧
    (¬ IsShort c n → IsLong c n → s.rf.lastSample = false → 2 * c.syncPulseMin ≤ s.rf.syncCount.toNat →
      rfHandler s = .ok { s with rf := { s.rf with
        sample := x, lastSample := x, count := 0, mode := .data, manBits := 0, numMB := 0, curByte := 0 } }) ∧
    (¬ IsShort c n → IsLong c n → s.rf.lastSample = true ∨ s.rf.syncCount.toNat < 2 * c.syncPulseMin →
      rfHandler s = .ok abort)

/-- R224: mode DATA at a transition: a bad pulse discards the frame; a long one first adds its level once more; then
a 1 with every byte received ends the frame, and anything else adds the new level. (The class of the saturated
count where `MaxLongCount` is 65535 is the model's choice, log 21.) -/
def Obligations.RfData : Prop :=
  ∀ s : State, s.rf.mode = .data → acceptedSample s ≠ s.rf.lastSample →
    let c := s.cfg
    let n := tickCount s
    let x := acceptedSample s
    let s1 := { s with rf := { s.rf with sample := x, count := n } }
    let edge := fun u : State =>
      (x = true ∧ u.rf.curByte = u.rf.maxBytes →
        rfHandler s = .ok { u with rf := { u.rf with mode := .msg, lastSample := x } }) ∧
      (∀ t, ¬ (x = true ∧ u.rf.curByte = u.rf.maxBytes) → addManBit x u = .ok t →
        rfHandler s = .ok { t with rf := { t.rf with count := 0, lastSample := x } })
    (¬ IsShort c n → ¬ IsLong c n →
      rfHandler s = .ok { s with rf := { s.rf with sample := x, lastSample := x, count := n, mode := .pre } }) ∧
    (IsShort c n → edge s1) ∧
    (¬ IsShort c n → IsLong c n → ∀ u, addManBit s.rf.lastSample s1 = .ok u → edge u)

/-- R225, R226, R227: the bit assembler. A bit is shifted in at the bottom; the sixteenth decodes the word, undoes
the whitening, stores the byte at `rf.curByte` where that is below `rf.capBytes`, counts it, and lets the first
byte of a length-prefixed frame set the target, clamped into `[1, capBytes]` with RF_CLAMP. The word is decoded
by the Manchester codec, as R226 fixes it where it lets a model take a parameter (log 19). -/
def Obligations.RfBitAssembler : Prop :=
  ∀ (s : State) (b : Bool),
    let w : Half := (s.rf.manBits <<< 1) ||| (if b then 1 else 0)
    let v : Byte := dec (w.extractLsb' 0 8) (w.extractLsb' 8 8) ^^^ s.cfg.decouplingMask
    let n := s.rf.curByte
    let learn := s.rf.lenpfx && decide (n = 0)
    let l : Byte := BitVec.ofNat 8 (max 1 (min v.toNat s.rf.capBytes.toNat))
    (s.rf.numMB ≠ 15 →
      addManBit b s = .ok { s with rf := { s.rf with manBits := w, numMB := s.rf.numMB + 1 } }) ∧
    (s.rf.numMB = 15 → s.rf.capBytes.toNat ≤ s.cfg.rfBufCap →
      ∃ t, addManBit b s = .ok t ∧
        t = { s with
          buf := t.buf
          status := { s.status with rfClamp := s.status.rfClamp || (learn && decide (l ≠ v)) }
          rf := { s.rf with
            manBits := w, numMB := 0, curByte := n + 1, maxBytes := if learn then l else s.rf.maxBytes } } ∧
        (n.toNat < s.rf.capBytes.toNat → bufByte t n.toNat = some v) ∧
        (∀ a, a ≠ n.toNat ∨ s.rf.capBytes.toNat ≤ n.toNat → bufByte t a = bufByte s a))

/-- R231: every change of `rf.mode`, with its cause. (The class of the saturated count where `MaxLongCount` is 65535 is
the model's choice, log 21.) -/
def Obligations.RfModeTable : Prop :=
  (∀ s t : State, rfHandler s = .ok t →
    let c := s.cfg
    let n := tickCount s
    let x := acceptedSample s
    t.rf.mode = s.rf.mode ∨
    (x ≠ s.rf.lastSample ∧
      ((s.rf.mode = .pre ∧ t.rf.mode = .sync ∧ x = true) ∨
      (s.rf.mode = .sync ∧ t.rf.mode = .pre ∧
        ((¬ IsShort c n ∧ ¬ IsLong c n) ∨
          (IsShort c n ∧ 2 * c.syncPulseMax < (s.rf.syncCount + 1).toNat) ∨
          (IsLong c n ∧ s.rf.lastSample = true) ∨
          (IsLong c n ∧ s.rf.syncCount.toNat < 2 * c.syncPulseMin))) ∨
      (s.rf.mode = .sync ∧ t.rf.mode = .data ∧ IsLong c n ∧ s.rf.lastSample = false ∧
        2 * c.syncPulseMin ≤ s.rf.syncCount.toNat) ∨
      (s.rf.mode = .data ∧ t.rf.mode = .pre ∧ ¬ IsShort c n ∧ ¬ IsLong c n) ∨
      (s.rf.mode = .data ∧ t.rf.mode = .msg ∧ (IsShort c n ∨ IsLong c n) ∧ x = true ∧
        t.rf.curByte = t.rf.maxBytes)))) ∧
  (∀ (i : Instr) (s t : State), exec i s = .next t →
    t.rf.mode = s.rf.mode ∨
    (t.rf.mode = .idle ∧ (i = .rfStop ∨ ∃ pin baud, i = .rfInit pin baud)) ∨
    (t.rf.mode = .pre ∧ (i = .rfBegin ∨ ∃ m, i = .rfBeginBytes m))) ∧
  (∀ s t : State, step s = .next t →
    t.rf.mode = s.rf.mode ∨ ((nextInput s).rst = true ∧ t.rf.mode = .idle) ∨
    (s.rf.mode, t.rf.mode) ∈
      [(RfMode.pre, RfMode.sync), (.sync, .pre), (.sync, .data), (.data, .pre), (.data, .msg)] ∨
    (∃ i, s.seq.busy = true ∧ decode s.seq.cmd = .ok i ∧
      ((t.rf.mode = .idle ∧ (i = .rfStop ∨ ∃ pin baud, i = .rfInit pin baud)) ∨
        (t.rf.mode = .pre ∧ (i = .rfBegin ∨ ∃ m, i = .rfBeginBytes m)))))

/-! ## EVT (44_event_dispatcher.md) -/

/-- R261, R263, R264, R269: `EVT_ONTIMER` binds a free slot to CBARG, with its timer, its limit and its interrupt
source; on a slot already bound it returns 1 and changes nothing else, the binding and its running count
among it. -/
def Obligations.EvtOnTimer : Prop :=
  ∀ (s : State) (slot : BitVec 4) (u : BitVec 2) (d : Half), Accepted s → slot.toNat < s.cfg.nEvt → u ≠ 3 →
    let k := slot.toNat
    let units := if u = 0 then s.cfg.fClk / 1000000 else if u = 1 then s.cfg.fClk / 1000 else s.cfg.fClk
    let f := evtFit s.cfg units
    ((slotAt s k).used = true →
      exec (.evtOnTimer slot u d) s = .next { s with result := 1, seq := completed s.seq 1 }) ∧
    ((slotAt s k).used = false →
      exec (.evtOnTimer slot u d) s = .next { s with
        evt := s.evt.set k
          ⟨true, s.cbarg, 0, BitVec.ofNat 32 ((d.toNat * f.k) % 2 ^ 32),
            ⟨true, BitVec.ofNat 16 f.ps, 0, 0, BitVec.ofNat 16 f.pr⟩⟩
        intcon := { s.intcon with
          ifEvt := setBit s.intcon.ifEvt k false, ieEvt := setBit s.intcon.ieEvt k true }
        result := 0
        seq := completed s.seq 1 })

/-- R265: `EVT_RELEASE` frees the slot, stops its timer, zeroes its count, discards a pending EVT tick and disables
the source; the rest of the slot keeps its values. -/
def Obligations.EvtRelease : Prop :=
  ∀ (s : State) (slot : BitVec 4), Accepted s → slot.toNat < s.cfg.nEvt →
    let k := slot.toNat
    let e := slotAt s k
    exec (.evtRelease slot) s = .next { s with
      evt := s.evt.set k { e with used := false, count := 0, t := { e.t with on := false } }
      intcon := { s.intcon with
        ifEvt := setBit s.intcon.ifEvt k false, ieEvt := setBit s.intcon.ieEvt k false }
      result := 0
      seq := completed s.seq 1 }

/-- R266: the EVT handler counts; at the limit it emits the slot's token and restarts the count. -/
def Obligations.EvtHandler : Prop :=
  ∀ (s : State) (k : Nat),
    let e := slotAt s k
    (e.limit.toNat ≤ (e.count.toNat + 1) % 2 ^ 32 →
      handlerOf (.evt k) s = .ok { s with
        evt := s.evt.set k { e with count := 0 }, callback := ⟨true, BitVec.ofNat 3 k, e.cb⟩ }) ∧
    ((e.count.toNat + 1) % 2 ^ 32 < e.limit.toNat →
      handlerOf (.evt k) s = .ok { s with evt := s.evt.set k { e with count := e.count + 1 } })

/-- R266, R268: from a count of 0, the callback comes at every `max(limit, 1)`-th EVT tick and at no other. -/
def Obligations.EvtDownSampling : Prop :=
  ∀ (s : State) (k n : Nat), k < s.evt.length → (slotAt s k).count = 0 →
    let l := max (slotAt s k).limit.toNat 1
    (slotAt (evtTicks k n s) k).count.toNat = n % l ∧
    (evtTicks k (n + 1) s).callback =
      if (n + 1) % l = 0 then ⟨true, BitVec.ofNat 3 k, (slotAt s k).cb⟩ else ⟨false, 0, 0⟩

/-- R267: in a cycle without reset the callback ports are driven exactly where a handler of an EVT slot runs and
reaches its limit, with that slot and its token, and all three are 0 otherwise. (After a reset cycle they
are 0: ResetCycle.) -/
def Obligations.CallbackPorts : Prop :=
  ∀ s t : State, (nextInput s).rst = false → step s = .next t →
    let u := timersStep (hostAccess (nextInput s).host (beginCycle (nextInput s) s))
    let emits := fun k => u.isrBusy = 0 ∧ readySource u = some (.evt k) ∧
      (slotAt u k).limit.toNat ≤ ((slotAt u k).count + 1).toNat
    (∀ k, emits k → t.callback = ⟨true, BitVec.ofNat 3 k, (slotAt u k).cb⟩) ∧
    ((∀ k, ¬ emits k) → t.callback = ⟨false, 0, 0⟩)

/-! ## The whole block -/

/-- R27, R33, R37, R152, R164, R270: what a command's cycle can write at all. `tick` and the TICK timer are
`MILLIS_INIT`'s, the RF timer `RF_INIT`'s, the slots and EVT bits those of the two EVT commands and of their
own slot, the record the RF commands', a pin that of the command's operand; no command stores to BUF, and
no OW command raises a flag but ARGERR. -/
def Obligations.CommandsFrame : Prop :=
  ∀ (i : Instr) (s t : State), exec i s = .next t →
    (t.cfg = s.cfg ∧ t.cycle = s.cycle ∧ t.inputs = s.inputs ∧ t.cbarg = s.cbarg ∧ t.pinIn = s.pinIn ∧
      t.pinQ = s.pinQ ∧ t.isrBusy = s.isrBusy ∧ t.readData = s.readData ∧ t.callback = s.callback) ∧
    (∀ a, bufByte t a = bufByte s a) ∧ t.seq.cmd = s.seq.cmd ∧ t.intcon.gie = s.intcon.gie ∧
    (i ≠ .millisInit → t.tick = s.tick ∧ t.tt = s.tt ∧ t.intcon.ifTick = s.intcon.ifTick ∧
      t.intcon.ieTick = s.intcon.ieTick) ∧
    ((∀ pin baud, i ≠ .rfInit pin baud) → t.rt = s.rt ∧ t.intcon.ifRf = s.intcon.ifRf ∧
      t.intcon.ieRf = s.intcon.ieRf) ∧
    (∀ k, (∀ slot u d, i = .evtOnTimer slot u d → slot.toNat ≠ k) → (∀ slot, i = .evtRelease slot → slot.toNat ≠ k) →
      slotAt t k = slotAt s k ∧ t.intcon.ifEvt.getLsbD k = s.intcon.ifEvt.getLsbD k ∧
        t.intcon.ieEvt.getLsbD k = s.intcon.ieEvt.getLsbD k) ∧
    ((∀ pin baud, i ≠ .rfInit pin baud) → i ≠ .rfBegin → (∀ m, i ≠ .rfBeginBytes m) → i ≠ .rfStop → t.rf = s.rf) ∧
    (∀ p, p < 32 → i ≠ .owReset (BitVec.ofNat 8 p) → i ≠ .owReadBit (BitVec.ofNat 8 p) →
      (∀ b, i ≠ .owWriteBit (BitVec.ofNat 8 p) b) → i ≠ .owReadByte (BitVec.ofNat 8 p) →
      (∀ v, i ≠ .owWriteByte (BitVec.ofNat 8 p) v) → (∀ baud, i ≠ .rfInit (BitVec.ofNat 8 p) baud) →
      t.pinDir.getLsbD p = s.pinDir.getLsbD p ∧ t.pinLat.getLsbD p = s.pinLat.getLsbD p) ∧
    ((∀ c, i ≠ .manNibbler c) → (∀ a b, i ≠ .manDecode a b) →
      t.status = s.status ∨ t.status = { s.status with argErr := true })

/-- R27, R134: in a cycle without reset `tick` is kept, advanced by one by the TICK handler, or zeroed by
`MILLIS_INIT`. -/
def Obligations.TickWriters : Prop :=
  ∀ s t : State, (nextInput s).rst = false → step s = .next t →
    let u := timersStep (hostAccess (nextInput s).host (beginCycle (nextInput s) s))
    let ticked := if u.isrBusy = 0 ∧ isReady u .tick = true then s.tick + 1 else s.tick
    t.tick = ticked ∨ (t.tick = 0 ∧ s.seq.busy = true ∧ decode s.seq.cmd = .ok .millisInit)

/-- R37, R84, R226: in a cycle without reset a byte of BUF changes only where INT serves the RF source in mode DATA, at
`rf.curByte`, and no byte that has been stored loses its value. -/
def Obligations.BufWriters : Prop :=
  ∀ s t : State, Inv s → (nextInput s).rst = false → step s = .next t →
    let u := timersStep (hostAccess (nextInput s).host (beginCycle (nextInput s) s))
    (∀ a, bufByte t a ≠ bufByte s a →
      u.isrBusy = 0 ∧ readySource u = some .rf ∧ s.rf.mode = .data ∧ a = s.rf.curByte.toNat) ∧
    (∀ a, bufByte s a ≠ none → bufByte t a ≠ none)

/-- The invariant of the block (R36 with R229, R30, R37, R40, R103, R26) holds right after reset, for every valid
choice of the parameters, and so does the bus invariant; the parameters of `State.reset` are the model's choice
(log 1). -/
def Obligations.InvAtReset : Prop :=
  (∀ c : Config, c.Valid → Inv (State.resetWith c) ∧ BusInv (State.resetWith c)) ∧ Inv State.reset

/-- R36, R229, R150: every cycle keeps the invariant of the block, whatever the host, the pins and the interrupts
do. -/
def Obligations.InvKept : Prop := ∀ s t : State, Inv s → step s = .next t → Inv t

/-- R175, R176: in every cycle the only pin that is an output is the one an OW command is driving low in its current
phase, so every pin is an input whenever SEQ is idle. -/
def Obligations.BusInvKept : Prop :=
  ∀ s t : State, Inv s → BusInv s → step s = .next t → BusInv t ∧ (t.seq.busy = false → t.pinDir = 0)

/-- R280, U6: no cycle of the block stops, but for a read of a byte of BUF that nothing has stored since reset. -/
def Obligations.StopsOnlyOnUnwrittenByte : Prop :=
  ∀ s : State, Inv s →
    (∀ r, step s ≠ .refused r) ∧
    ∀ f, step s = .fault f → s.seq.busy = true ∧
      ∃ a, f = .bufUnwritten a ∧ bufByte s a = none ∧
        ((decode s.seq.cmd = .ok .rfGetMsg ∧ a < 2) ∨
          ∃ x : Byte, decode s.seq.cmd = .ok (.rfRdBuf x) ∧ a = x.toNat)
end

