-- ==== Sys2Proof/Laws/Memory.lean ====
section
/-! SUPPORT. BUF: a byte reads back as it was stored, a store leaves every other byte, and every store keeps
the canonical form. -/

namespace Sys2Proof.Machine

/-- A byte reads back as it was stored. -/
@[simp] theorem cellAt_cellStore_same (m : List Host.Cell) (x : Nat) (v : Byte) :
    cellAt (cellStore m x v) x = some v := by
  induction m with
  | nil => simp [cellStore, cellAt]
  | cons p rest ih =>
    obtain ⟨a, b⟩ := p
    simp only [cellStore]
    split
    · simp [cellAt]
    · split
      · simp [cellAt]
      · simp [cellAt, Ne.symm ‹¬x = a›, ih]

/-- A store leaves every other byte as it was. -/
theorem cellAt_cellStore_other (m : List Host.Cell) {x y : Nat} (v : Byte) (h : y ≠ x) :
    cellAt (cellStore m x v) y = cellAt m y := by
  induction m with
  | nil => simp [cellStore, cellAt, Ne.symm h]
  | cons p rest ih =>
    obtain ⟨a, b⟩ := p
    simp only [cellStore]
    split
    · simp [cellAt, Ne.symm h]
    · split
      · subst ‹x = a›; simp [cellAt, Ne.symm h]
      · simp [cellAt, ih]

/-- A cell of the list after a store is the one stored or was there before. -/
theorem mem_cellStore {m : List Host.Cell} {x : Nat} {v : Byte} {p : Host.Cell}
    (h : p ∈ cellStore m x v) : p = (x, v) ∨ p ∈ m := by
  induction m with
  | nil => simpa [cellStore] using h
  | cons q rest ih =>
    obtain ⟨a, b⟩ := q
    simp only [cellStore] at h
    split at h
    · simpa [or_assoc] using h
    · split at h
      · rcases List.mem_cons.1 h with h | h
        · exact .inl h
        · exact .inr (List.mem_cons_of_mem _ h)
      · rcases List.mem_cons.1 h with h | h
        · exact .inr (h ▸ List.mem_cons_self ..)
        · rcases ih h with h | h
          · exact .inl h
          · exact .inr (List.mem_cons_of_mem _ h)

/-- A store keeps the canonical form. -/
theorem wf_cellStore {m : List Host.Cell} (x : Nat) (v : Byte) (h : Memory.wf m) :
    Memory.wf (cellStore m x v) := by
  induction m with
  | nil => simp [cellStore, Memory.wf]
  | cons q rest ih =>
    obtain ⟨a, b⟩ := q
    rw [Memory.wf, List.pairwise_cons] at h
    simp only [cellStore]
    split
    · refine List.pairwise_cons.2 ⟨?_, List.pairwise_cons.2 h⟩
      rintro p hp
      rcases List.mem_cons.1 hp with rfl | hp
      · assumption
      · exact lt_trans ‹x < a› (h.1 p hp)
    · split
      · subst ‹x = a›
        exact List.pairwise_cons.2 ⟨h.1, h.2⟩
      · refine List.pairwise_cons.2 ⟨?_, ih h.2⟩
        rintro p hp
        rcases mem_cellStore hp with rfl | hp
        · show a < x; omega
        · exact h.1 p hp

/-- The memory right after reset has the canonical form. -/
theorem wf_reset (c : Config) : Memory.wf (State.resetWith c).buf := List.Pairwise.nil

/-- What a store into BUF can do. -/
theorem bufStore_ok {i : Nat} {v : Byte} {s t : State} (h : bufStore i v s = .ok t) :
    i < s.cfg.rfBufCap ∧ t = s.setBuf (cellStore s.buf i v) := by
  unfold bufStore at h
  split at h
  · exact ⟨‹_›, (Except.ok.inj h).symm⟩
  · cases h

/-- What a load from BUF can answer. -/
theorem bufLoad_ok {i : Nat} {b : Byte} {s : State} (h : bufLoad s i = .ok b) :
    i < s.cfg.rfBufCap ∧ bufByte s i = some b := by
  unfold bufLoad at h
  split at h
  · split at h
    · cases h; exact ⟨‹_›, ‹_›⟩
    · cases h
  · cases h

end Sys2Proof.Machine
end

