-- ==== Sys2Proof/Laws/State.lean ====
section
/-! SUPPORT. What each update of one field leaves: the field it writes holds the new value, every other field
is as before. Each is true by unfolding one record update, so that no later proof unfolds one. -/

namespace Sys2Proof.Machine.State

section setCycle
variable (s : State) (v : Nat)
@[simp] theorem setCycle_cfg : (s.setCycle v).cfg = s.cfg := rfl
@[simp] theorem setCycle_cycle : (s.setCycle v).cycle = v := rfl
@[simp] theorem setCycle_inputs : (s.setCycle v).inputs = s.inputs := rfl
@[simp] theorem setCycle_cbarg : (s.setCycle v).cbarg = s.cbarg := rfl
@[simp] theorem setCycle_result : (s.setCycle v).result = s.result := rfl
@[simp] theorem setCycle_status : (s.setCycle v).status = s.status := rfl
@[simp] theorem setCycle_intcon : (s.setCycle v).intcon = s.intcon := rfl
@[simp] theorem setCycle_seq : (s.setCycle v).seq = s.seq := rfl
@[simp] theorem setCycle_pinDir : (s.setCycle v).pinDir = s.pinDir := rfl
@[simp] theorem setCycle_pinLat : (s.setCycle v).pinLat = s.pinLat := rfl
@[simp] theorem setCycle_pinQ : (s.setCycle v).pinQ = s.pinQ := rfl
@[simp] theorem setCycle_pinIn : (s.setCycle v).pinIn = s.pinIn := rfl
@[simp] theorem setCycle_tick : (s.setCycle v).tick = s.tick := rfl
@[simp] theorem setCycle_tt : (s.setCycle v).tt = s.tt := rfl
@[simp] theorem setCycle_rt : (s.setCycle v).rt = s.rt := rfl
@[simp] theorem setCycle_rf : (s.setCycle v).rf = s.rf := rfl
@[simp] theorem setCycle_buf : (s.setCycle v).buf = s.buf := rfl
@[simp] theorem setCycle_evt : (s.setCycle v).evt = s.evt := rfl
@[simp] theorem setCycle_isrBusy : (s.setCycle v).isrBusy = s.isrBusy := rfl
@[simp] theorem setCycle_readData : (s.setCycle v).readData = s.readData := rfl
@[simp] theorem setCycle_callback : (s.setCycle v).callback = s.callback := rfl
end setCycle

section setInputs
variable (s : State) (v : List Input)
@[simp] theorem setInputs_cfg : (s.setInputs v).cfg = s.cfg := rfl
@[simp] theorem setInputs_cycle : (s.setInputs v).cycle = s.cycle := rfl
@[simp] theorem setInputs_inputs : (s.setInputs v).inputs = v := rfl
@[simp] theorem setInputs_cbarg : (s.setInputs v).cbarg = s.cbarg := rfl
@[simp] theorem setInputs_result : (s.setInputs v).result = s.result := rfl
@[simp] theorem setInputs_status : (s.setInputs v).status = s.status := rfl
@[simp] theorem setInputs_intcon : (s.setInputs v).intcon = s.intcon := rfl
@[simp] theorem setInputs_seq : (s.setInputs v).seq = s.seq := rfl
@[simp] theorem setInputs_pinDir : (s.setInputs v).pinDir = s.pinDir := rfl
@[simp] theorem setInputs_pinLat : (s.setInputs v).pinLat = s.pinLat := rfl
@[simp] theorem setInputs_pinQ : (s.setInputs v).pinQ = s.pinQ := rfl
@[simp] theorem setInputs_pinIn : (s.setInputs v).pinIn = s.pinIn := rfl
@[simp] theorem setInputs_tick : (s.setInputs v).tick = s.tick := rfl
@[simp] theorem setInputs_tt : (s.setInputs v).tt = s.tt := rfl
@[simp] theorem setInputs_rt : (s.setInputs v).rt = s.rt := rfl
@[simp] theorem setInputs_rf : (s.setInputs v).rf = s.rf := rfl
@[simp] theorem setInputs_buf : (s.setInputs v).buf = s.buf := rfl
@[simp] theorem setInputs_evt : (s.setInputs v).evt = s.evt := rfl
@[simp] theorem setInputs_isrBusy : (s.setInputs v).isrBusy = s.isrBusy := rfl
@[simp] theorem setInputs_readData : (s.setInputs v).readData = s.readData := rfl
@[simp] theorem setInputs_callback : (s.setInputs v).callback = s.callback := rfl
end setInputs

section setCbarg
variable (s : State) (v : Word)
@[simp] theorem setCbarg_cfg : (s.setCbarg v).cfg = s.cfg := rfl
@[simp] theorem setCbarg_cycle : (s.setCbarg v).cycle = s.cycle := rfl
@[simp] theorem setCbarg_inputs : (s.setCbarg v).inputs = s.inputs := rfl
@[simp] theorem setCbarg_cbarg : (s.setCbarg v).cbarg = v := rfl
@[simp] theorem setCbarg_result : (s.setCbarg v).result = s.result := rfl
@[simp] theorem setCbarg_status : (s.setCbarg v).status = s.status := rfl
@[simp] theorem setCbarg_intcon : (s.setCbarg v).intcon = s.intcon := rfl
@[simp] theorem setCbarg_seq : (s.setCbarg v).seq = s.seq := rfl
@[simp] theorem setCbarg_pinDir : (s.setCbarg v).pinDir = s.pinDir := rfl
@[simp] theorem setCbarg_pinLat : (s.setCbarg v).pinLat = s.pinLat := rfl
@[simp] theorem setCbarg_pinQ : (s.setCbarg v).pinQ = s.pinQ := rfl
@[simp] theorem setCbarg_pinIn : (s.setCbarg v).pinIn = s.pinIn := rfl
@[simp] theorem setCbarg_tick : (s.setCbarg v).tick = s.tick := rfl
@[simp] theorem setCbarg_tt : (s.setCbarg v).tt = s.tt := rfl
@[simp] theorem setCbarg_rt : (s.setCbarg v).rt = s.rt := rfl
@[simp] theorem setCbarg_rf : (s.setCbarg v).rf = s.rf := rfl
@[simp] theorem setCbarg_buf : (s.setCbarg v).buf = s.buf := rfl
@[simp] theorem setCbarg_evt : (s.setCbarg v).evt = s.evt := rfl
@[simp] theorem setCbarg_isrBusy : (s.setCbarg v).isrBusy = s.isrBusy := rfl
@[simp] theorem setCbarg_readData : (s.setCbarg v).readData = s.readData := rfl
@[simp] theorem setCbarg_callback : (s.setCbarg v).callback = s.callback := rfl
end setCbarg

section setResult
variable (s : State) (v : Word)
@[simp] theorem setResult_cfg : (s.setResult v).cfg = s.cfg := rfl
@[simp] theorem setResult_cycle : (s.setResult v).cycle = s.cycle := rfl
@[simp] theorem setResult_inputs : (s.setResult v).inputs = s.inputs := rfl
@[simp] theorem setResult_cbarg : (s.setResult v).cbarg = s.cbarg := rfl
@[simp] theorem setResult_result : (s.setResult v).result = v := rfl
@[simp] theorem setResult_status : (s.setResult v).status = s.status := rfl
@[simp] theorem setResult_intcon : (s.setResult v).intcon = s.intcon := rfl
@[simp] theorem setResult_seq : (s.setResult v).seq = s.seq := rfl
@[simp] theorem setResult_pinDir : (s.setResult v).pinDir = s.pinDir := rfl
@[simp] theorem setResult_pinLat : (s.setResult v).pinLat = s.pinLat := rfl
@[simp] theorem setResult_pinQ : (s.setResult v).pinQ = s.pinQ := rfl
@[simp] theorem setResult_pinIn : (s.setResult v).pinIn = s.pinIn := rfl
@[simp] theorem setResult_tick : (s.setResult v).tick = s.tick := rfl
@[simp] theorem setResult_tt : (s.setResult v).tt = s.tt := rfl
@[simp] theorem setResult_rt : (s.setResult v).rt = s.rt := rfl
@[simp] theorem setResult_rf : (s.setResult v).rf = s.rf := rfl
@[simp] theorem setResult_buf : (s.setResult v).buf = s.buf := rfl
@[simp] theorem setResult_evt : (s.setResult v).evt = s.evt := rfl
@[simp] theorem setResult_isrBusy : (s.setResult v).isrBusy = s.isrBusy := rfl
@[simp] theorem setResult_readData : (s.setResult v).readData = s.readData := rfl
@[simp] theorem setResult_callback : (s.setResult v).callback = s.callback := rfl
end setResult

section setStatus
variable (s : State) (v : Status)
@[simp] theorem setStatus_cfg : (s.setStatus v).cfg = s.cfg := rfl
@[simp] theorem setStatus_cycle : (s.setStatus v).cycle = s.cycle := rfl
@[simp] theorem setStatus_inputs : (s.setStatus v).inputs = s.inputs := rfl
@[simp] theorem setStatus_cbarg : (s.setStatus v).cbarg = s.cbarg := rfl
@[simp] theorem setStatus_result : (s.setStatus v).result = s.result := rfl
@[simp] theorem setStatus_status : (s.setStatus v).status = v := rfl
@[simp] theorem setStatus_intcon : (s.setStatus v).intcon = s.intcon := rfl
@[simp] theorem setStatus_seq : (s.setStatus v).seq = s.seq := rfl
@[simp] theorem setStatus_pinDir : (s.setStatus v).pinDir = s.pinDir := rfl
@[simp] theorem setStatus_pinLat : (s.setStatus v).pinLat = s.pinLat := rfl
@[simp] theorem setStatus_pinQ : (s.setStatus v).pinQ = s.pinQ := rfl
@[simp] theorem setStatus_pinIn : (s.setStatus v).pinIn = s.pinIn := rfl
@[simp] theorem setStatus_tick : (s.setStatus v).tick = s.tick := rfl
@[simp] theorem setStatus_tt : (s.setStatus v).tt = s.tt := rfl
@[simp] theorem setStatus_rt : (s.setStatus v).rt = s.rt := rfl
@[simp] theorem setStatus_rf : (s.setStatus v).rf = s.rf := rfl
@[simp] theorem setStatus_buf : (s.setStatus v).buf = s.buf := rfl
@[simp] theorem setStatus_evt : (s.setStatus v).evt = s.evt := rfl
@[simp] theorem setStatus_isrBusy : (s.setStatus v).isrBusy = s.isrBusy := rfl
@[simp] theorem setStatus_readData : (s.setStatus v).readData = s.readData := rfl
@[simp] theorem setStatus_callback : (s.setStatus v).callback = s.callback := rfl
end setStatus

section setIntcon
variable (s : State) (v : IntCon)
@[simp] theorem setIntcon_cfg : (s.setIntcon v).cfg = s.cfg := rfl
@[simp] theorem setIntcon_cycle : (s.setIntcon v).cycle = s.cycle := rfl
@[simp] theorem setIntcon_inputs : (s.setIntcon v).inputs = s.inputs := rfl
@[simp] theorem setIntcon_cbarg : (s.setIntcon v).cbarg = s.cbarg := rfl
@[simp] theorem setIntcon_result : (s.setIntcon v).result = s.result := rfl
@[simp] theorem setIntcon_status : (s.setIntcon v).status = s.status := rfl
@[simp] theorem setIntcon_intcon : (s.setIntcon v).intcon = v := rfl
@[simp] theorem setIntcon_seq : (s.setIntcon v).seq = s.seq := rfl
@[simp] theorem setIntcon_pinDir : (s.setIntcon v).pinDir = s.pinDir := rfl
@[simp] theorem setIntcon_pinLat : (s.setIntcon v).pinLat = s.pinLat := rfl
@[simp] theorem setIntcon_pinQ : (s.setIntcon v).pinQ = s.pinQ := rfl
@[simp] theorem setIntcon_pinIn : (s.setIntcon v).pinIn = s.pinIn := rfl
@[simp] theorem setIntcon_tick : (s.setIntcon v).tick = s.tick := rfl
@[simp] theorem setIntcon_tt : (s.setIntcon v).tt = s.tt := rfl
@[simp] theorem setIntcon_rt : (s.setIntcon v).rt = s.rt := rfl
@[simp] theorem setIntcon_rf : (s.setIntcon v).rf = s.rf := rfl
@[simp] theorem setIntcon_buf : (s.setIntcon v).buf = s.buf := rfl
@[simp] theorem setIntcon_evt : (s.setIntcon v).evt = s.evt := rfl
@[simp] theorem setIntcon_isrBusy : (s.setIntcon v).isrBusy = s.isrBusy := rfl
@[simp] theorem setIntcon_readData : (s.setIntcon v).readData = s.readData := rfl
@[simp] theorem setIntcon_callback : (s.setIntcon v).callback = s.callback := rfl
end setIntcon

section setSeq
variable (s : State) (v : Seq)
@[simp] theorem setSeq_cfg : (s.setSeq v).cfg = s.cfg := rfl
@[simp] theorem setSeq_cycle : (s.setSeq v).cycle = s.cycle := rfl
@[simp] theorem setSeq_inputs : (s.setSeq v).inputs = s.inputs := rfl
@[simp] theorem setSeq_cbarg : (s.setSeq v).cbarg = s.cbarg := rfl
@[simp] theorem setSeq_result : (s.setSeq v).result = s.result := rfl
@[simp] theorem setSeq_status : (s.setSeq v).status = s.status := rfl
@[simp] theorem setSeq_intcon : (s.setSeq v).intcon = s.intcon := rfl
@[simp] theorem setSeq_seq : (s.setSeq v).seq = v := rfl
@[simp] theorem setSeq_pinDir : (s.setSeq v).pinDir = s.pinDir := rfl
@[simp] theorem setSeq_pinLat : (s.setSeq v).pinLat = s.pinLat := rfl
@[simp] theorem setSeq_pinQ : (s.setSeq v).pinQ = s.pinQ := rfl
@[simp] theorem setSeq_pinIn : (s.setSeq v).pinIn = s.pinIn := rfl
@[simp] theorem setSeq_tick : (s.setSeq v).tick = s.tick := rfl
@[simp] theorem setSeq_tt : (s.setSeq v).tt = s.tt := rfl
@[simp] theorem setSeq_rt : (s.setSeq v).rt = s.rt := rfl
@[simp] theorem setSeq_rf : (s.setSeq v).rf = s.rf := rfl
@[simp] theorem setSeq_buf : (s.setSeq v).buf = s.buf := rfl
@[simp] theorem setSeq_evt : (s.setSeq v).evt = s.evt := rfl
@[simp] theorem setSeq_isrBusy : (s.setSeq v).isrBusy = s.isrBusy := rfl
@[simp] theorem setSeq_readData : (s.setSeq v).readData = s.readData := rfl
@[simp] theorem setSeq_callback : (s.setSeq v).callback = s.callback := rfl
end setSeq

section setPinDir
variable (s : State) (v : BitVec 32)
@[simp] theorem setPinDir_cfg : (s.setPinDir v).cfg = s.cfg := rfl
@[simp] theorem setPinDir_cycle : (s.setPinDir v).cycle = s.cycle := rfl
@[simp] theorem setPinDir_inputs : (s.setPinDir v).inputs = s.inputs := rfl
@[simp] theorem setPinDir_cbarg : (s.setPinDir v).cbarg = s.cbarg := rfl
@[simp] theorem setPinDir_result : (s.setPinDir v).result = s.result := rfl
@[simp] theorem setPinDir_status : (s.setPinDir v).status = s.status := rfl
@[simp] theorem setPinDir_intcon : (s.setPinDir v).intcon = s.intcon := rfl
@[simp] theorem setPinDir_seq : (s.setPinDir v).seq = s.seq := rfl
@[simp] theorem setPinDir_pinDir : (s.setPinDir v).pinDir = v := rfl
@[simp] theorem setPinDir_pinLat : (s.setPinDir v).pinLat = s.pinLat := rfl
@[simp] theorem setPinDir_pinQ : (s.setPinDir v).pinQ = s.pinQ := rfl
@[simp] theorem setPinDir_pinIn : (s.setPinDir v).pinIn = s.pinIn := rfl
@[simp] theorem setPinDir_tick : (s.setPinDir v).tick = s.tick := rfl
@[simp] theorem setPinDir_tt : (s.setPinDir v).tt = s.tt := rfl
@[simp] theorem setPinDir_rt : (s.setPinDir v).rt = s.rt := rfl
@[simp] theorem setPinDir_rf : (s.setPinDir v).rf = s.rf := rfl
@[simp] theorem setPinDir_buf : (s.setPinDir v).buf = s.buf := rfl
@[simp] theorem setPinDir_evt : (s.setPinDir v).evt = s.evt := rfl
@[simp] theorem setPinDir_isrBusy : (s.setPinDir v).isrBusy = s.isrBusy := rfl
@[simp] theorem setPinDir_readData : (s.setPinDir v).readData = s.readData := rfl
@[simp] theorem setPinDir_callback : (s.setPinDir v).callback = s.callback := rfl
end setPinDir

section setPinLat
variable (s : State) (v : BitVec 32)
@[simp] theorem setPinLat_cfg : (s.setPinLat v).cfg = s.cfg := rfl
@[simp] theorem setPinLat_cycle : (s.setPinLat v).cycle = s.cycle := rfl
@[simp] theorem setPinLat_inputs : (s.setPinLat v).inputs = s.inputs := rfl
@[simp] theorem setPinLat_cbarg : (s.setPinLat v).cbarg = s.cbarg := rfl
@[simp] theorem setPinLat_result : (s.setPinLat v).result = s.result := rfl
@[simp] theorem setPinLat_status : (s.setPinLat v).status = s.status := rfl
@[simp] theorem setPinLat_intcon : (s.setPinLat v).intcon = s.intcon := rfl
@[simp] theorem setPinLat_seq : (s.setPinLat v).seq = s.seq := rfl
@[simp] theorem setPinLat_pinDir : (s.setPinLat v).pinDir = s.pinDir := rfl
@[simp] theorem setPinLat_pinLat : (s.setPinLat v).pinLat = v := rfl
@[simp] theorem setPinLat_pinQ : (s.setPinLat v).pinQ = s.pinQ := rfl
@[simp] theorem setPinLat_pinIn : (s.setPinLat v).pinIn = s.pinIn := rfl
@[simp] theorem setPinLat_tick : (s.setPinLat v).tick = s.tick := rfl
@[simp] theorem setPinLat_tt : (s.setPinLat v).tt = s.tt := rfl
@[simp] theorem setPinLat_rt : (s.setPinLat v).rt = s.rt := rfl
@[simp] theorem setPinLat_rf : (s.setPinLat v).rf = s.rf := rfl
@[simp] theorem setPinLat_buf : (s.setPinLat v).buf = s.buf := rfl
@[simp] theorem setPinLat_evt : (s.setPinLat v).evt = s.evt := rfl
@[simp] theorem setPinLat_isrBusy : (s.setPinLat v).isrBusy = s.isrBusy := rfl
@[simp] theorem setPinLat_readData : (s.setPinLat v).readData = s.readData := rfl
@[simp] theorem setPinLat_callback : (s.setPinLat v).callback = s.callback := rfl
end setPinLat

section setPinQ
variable (s : State) (v : BitVec 32)
@[simp] theorem setPinQ_cfg : (s.setPinQ v).cfg = s.cfg := rfl
@[simp] theorem setPinQ_cycle : (s.setPinQ v).cycle = s.cycle := rfl
@[simp] theorem setPinQ_inputs : (s.setPinQ v).inputs = s.inputs := rfl
@[simp] theorem setPinQ_cbarg : (s.setPinQ v).cbarg = s.cbarg := rfl
@[simp] theorem setPinQ_result : (s.setPinQ v).result = s.result := rfl
@[simp] theorem setPinQ_status : (s.setPinQ v).status = s.status := rfl
@[simp] theorem setPinQ_intcon : (s.setPinQ v).intcon = s.intcon := rfl
@[simp] theorem setPinQ_seq : (s.setPinQ v).seq = s.seq := rfl
@[simp] theorem setPinQ_pinDir : (s.setPinQ v).pinDir = s.pinDir := rfl
@[simp] theorem setPinQ_pinLat : (s.setPinQ v).pinLat = s.pinLat := rfl
@[simp] theorem setPinQ_pinQ : (s.setPinQ v).pinQ = v := rfl
@[simp] theorem setPinQ_pinIn : (s.setPinQ v).pinIn = s.pinIn := rfl
@[simp] theorem setPinQ_tick : (s.setPinQ v).tick = s.tick := rfl
@[simp] theorem setPinQ_tt : (s.setPinQ v).tt = s.tt := rfl
@[simp] theorem setPinQ_rt : (s.setPinQ v).rt = s.rt := rfl
@[simp] theorem setPinQ_rf : (s.setPinQ v).rf = s.rf := rfl
@[simp] theorem setPinQ_buf : (s.setPinQ v).buf = s.buf := rfl
@[simp] theorem setPinQ_evt : (s.setPinQ v).evt = s.evt := rfl
@[simp] theorem setPinQ_isrBusy : (s.setPinQ v).isrBusy = s.isrBusy := rfl
@[simp] theorem setPinQ_readData : (s.setPinQ v).readData = s.readData := rfl
@[simp] theorem setPinQ_callback : (s.setPinQ v).callback = s.callback := rfl
end setPinQ

section setPinIn
variable (s : State) (v : BitVec 32)
@[simp] theorem setPinIn_cfg : (s.setPinIn v).cfg = s.cfg := rfl
@[simp] theorem setPinIn_cycle : (s.setPinIn v).cycle = s.cycle := rfl
@[simp] theorem setPinIn_inputs : (s.setPinIn v).inputs = s.inputs := rfl
@[simp] theorem setPinIn_cbarg : (s.setPinIn v).cbarg = s.cbarg := rfl
@[simp] theorem setPinIn_result : (s.setPinIn v).result = s.result := rfl
@[simp] theorem setPinIn_status : (s.setPinIn v).status = s.status := rfl
@[simp] theorem setPinIn_intcon : (s.setPinIn v).intcon = s.intcon := rfl
@[simp] theorem setPinIn_seq : (s.setPinIn v).seq = s.seq := rfl
@[simp] theorem setPinIn_pinDir : (s.setPinIn v).pinDir = s.pinDir := rfl
@[simp] theorem setPinIn_pinLat : (s.setPinIn v).pinLat = s.pinLat := rfl
@[simp] theorem setPinIn_pinQ : (s.setPinIn v).pinQ = s.pinQ := rfl
@[simp] theorem setPinIn_pinIn : (s.setPinIn v).pinIn = v := rfl
@[simp] theorem setPinIn_tick : (s.setPinIn v).tick = s.tick := rfl
@[simp] theorem setPinIn_tt : (s.setPinIn v).tt = s.tt := rfl
@[simp] theorem setPinIn_rt : (s.setPinIn v).rt = s.rt := rfl
@[simp] theorem setPinIn_rf : (s.setPinIn v).rf = s.rf := rfl
@[simp] theorem setPinIn_buf : (s.setPinIn v).buf = s.buf := rfl
@[simp] theorem setPinIn_evt : (s.setPinIn v).evt = s.evt := rfl
@[simp] theorem setPinIn_isrBusy : (s.setPinIn v).isrBusy = s.isrBusy := rfl
@[simp] theorem setPinIn_readData : (s.setPinIn v).readData = s.readData := rfl
@[simp] theorem setPinIn_callback : (s.setPinIn v).callback = s.callback := rfl
end setPinIn

section setTick
variable (s : State) (v : Word)
@[simp] theorem setTick_cfg : (s.setTick v).cfg = s.cfg := rfl
@[simp] theorem setTick_cycle : (s.setTick v).cycle = s.cycle := rfl
@[simp] theorem setTick_inputs : (s.setTick v).inputs = s.inputs := rfl
@[simp] theorem setTick_cbarg : (s.setTick v).cbarg = s.cbarg := rfl
@[simp] theorem setTick_result : (s.setTick v).result = s.result := rfl
@[simp] theorem setTick_status : (s.setTick v).status = s.status := rfl
@[simp] theorem setTick_intcon : (s.setTick v).intcon = s.intcon := rfl
@[simp] theorem setTick_seq : (s.setTick v).seq = s.seq := rfl
@[simp] theorem setTick_pinDir : (s.setTick v).pinDir = s.pinDir := rfl
@[simp] theorem setTick_pinLat : (s.setTick v).pinLat = s.pinLat := rfl
@[simp] theorem setTick_pinQ : (s.setTick v).pinQ = s.pinQ := rfl
@[simp] theorem setTick_pinIn : (s.setTick v).pinIn = s.pinIn := rfl
@[simp] theorem setTick_tick : (s.setTick v).tick = v := rfl
@[simp] theorem setTick_tt : (s.setTick v).tt = s.tt := rfl
@[simp] theorem setTick_rt : (s.setTick v).rt = s.rt := rfl
@[simp] theorem setTick_rf : (s.setTick v).rf = s.rf := rfl
@[simp] theorem setTick_buf : (s.setTick v).buf = s.buf := rfl
@[simp] theorem setTick_evt : (s.setTick v).evt = s.evt := rfl
@[simp] theorem setTick_isrBusy : (s.setTick v).isrBusy = s.isrBusy := rfl
@[simp] theorem setTick_readData : (s.setTick v).readData = s.readData := rfl
@[simp] theorem setTick_callback : (s.setTick v).callback = s.callback := rfl
end setTick

section setTt
variable (s : State) (v : Timer)
@[simp] theorem setTt_cfg : (s.setTt v).cfg = s.cfg := rfl
@[simp] theorem setTt_cycle : (s.setTt v).cycle = s.cycle := rfl
@[simp] theorem setTt_inputs : (s.setTt v).inputs = s.inputs := rfl
@[simp] theorem setTt_cbarg : (s.setTt v).cbarg = s.cbarg := rfl
@[simp] theorem setTt_result : (s.setTt v).result = s.result := rfl
@[simp] theorem setTt_status : (s.setTt v).status = s.status := rfl
@[simp] theorem setTt_intcon : (s.setTt v).intcon = s.intcon := rfl
@[simp] theorem setTt_seq : (s.setTt v).seq = s.seq := rfl
@[simp] theorem setTt_pinDir : (s.setTt v).pinDir = s.pinDir := rfl
@[simp] theorem setTt_pinLat : (s.setTt v).pinLat = s.pinLat := rfl
@[simp] theorem setTt_pinQ : (s.setTt v).pinQ = s.pinQ := rfl
@[simp] theorem setTt_pinIn : (s.setTt v).pinIn = s.pinIn := rfl
@[simp] theorem setTt_tick : (s.setTt v).tick = s.tick := rfl
@[simp] theorem setTt_tt : (s.setTt v).tt = v := rfl
@[simp] theorem setTt_rt : (s.setTt v).rt = s.rt := rfl
@[simp] theorem setTt_rf : (s.setTt v).rf = s.rf := rfl
@[simp] theorem setTt_buf : (s.setTt v).buf = s.buf := rfl
@[simp] theorem setTt_evt : (s.setTt v).evt = s.evt := rfl
@[simp] theorem setTt_isrBusy : (s.setTt v).isrBusy = s.isrBusy := rfl
@[simp] theorem setTt_readData : (s.setTt v).readData = s.readData := rfl
@[simp] theorem setTt_callback : (s.setTt v).callback = s.callback := rfl
end setTt

section setRt
variable (s : State) (v : Timer)
@[simp] theorem setRt_cfg : (s.setRt v).cfg = s.cfg := rfl
@[simp] theorem setRt_cycle : (s.setRt v).cycle = s.cycle := rfl
@[simp] theorem setRt_inputs : (s.setRt v).inputs = s.inputs := rfl
@[simp] theorem setRt_cbarg : (s.setRt v).cbarg = s.cbarg := rfl
@[simp] theorem setRt_result : (s.setRt v).result = s.result := rfl
@[simp] theorem setRt_status : (s.setRt v).status = s.status := rfl
@[simp] theorem setRt_intcon : (s.setRt v).intcon = s.intcon := rfl
@[simp] theorem setRt_seq : (s.setRt v).seq = s.seq := rfl
@[simp] theorem setRt_pinDir : (s.setRt v).pinDir = s.pinDir := rfl
@[simp] theorem setRt_pinLat : (s.setRt v).pinLat = s.pinLat := rfl
@[simp] theorem setRt_pinQ : (s.setRt v).pinQ = s.pinQ := rfl
@[simp] theorem setRt_pinIn : (s.setRt v).pinIn = s.pinIn := rfl
@[simp] theorem setRt_tick : (s.setRt v).tick = s.tick := rfl
@[simp] theorem setRt_tt : (s.setRt v).tt = s.tt := rfl
@[simp] theorem setRt_rt : (s.setRt v).rt = v := rfl
@[simp] theorem setRt_rf : (s.setRt v).rf = s.rf := rfl
@[simp] theorem setRt_buf : (s.setRt v).buf = s.buf := rfl
@[simp] theorem setRt_evt : (s.setRt v).evt = s.evt := rfl
@[simp] theorem setRt_isrBusy : (s.setRt v).isrBusy = s.isrBusy := rfl
@[simp] theorem setRt_readData : (s.setRt v).readData = s.readData := rfl
@[simp] theorem setRt_callback : (s.setRt v).callback = s.callback := rfl
end setRt

section setRf
variable (s : State) (v : RfRecord)
@[simp] theorem setRf_cfg : (s.setRf v).cfg = s.cfg := rfl
@[simp] theorem setRf_cycle : (s.setRf v).cycle = s.cycle := rfl
@[simp] theorem setRf_inputs : (s.setRf v).inputs = s.inputs := rfl
@[simp] theorem setRf_cbarg : (s.setRf v).cbarg = s.cbarg := rfl
@[simp] theorem setRf_result : (s.setRf v).result = s.result := rfl
@[simp] theorem setRf_status : (s.setRf v).status = s.status := rfl
@[simp] theorem setRf_intcon : (s.setRf v).intcon = s.intcon := rfl
@[simp] theorem setRf_seq : (s.setRf v).seq = s.seq := rfl
@[simp] theorem setRf_pinDir : (s.setRf v).pinDir = s.pinDir := rfl
@[simp] theorem setRf_pinLat : (s.setRf v).pinLat = s.pinLat := rfl
@[simp] theorem setRf_pinQ : (s.setRf v).pinQ = s.pinQ := rfl
@[simp] theorem setRf_pinIn : (s.setRf v).pinIn = s.pinIn := rfl
@[simp] theorem setRf_tick : (s.setRf v).tick = s.tick := rfl
@[simp] theorem setRf_tt : (s.setRf v).tt = s.tt := rfl
@[simp] theorem setRf_rt : (s.setRf v).rt = s.rt := rfl
@[simp] theorem setRf_rf : (s.setRf v).rf = v := rfl
@[simp] theorem setRf_buf : (s.setRf v).buf = s.buf := rfl
@[simp] theorem setRf_evt : (s.setRf v).evt = s.evt := rfl
@[simp] theorem setRf_isrBusy : (s.setRf v).isrBusy = s.isrBusy := rfl
@[simp] theorem setRf_readData : (s.setRf v).readData = s.readData := rfl
@[simp] theorem setRf_callback : (s.setRf v).callback = s.callback := rfl
end setRf

section setBuf
variable (s : State) (v : List Host.Cell)
@[simp] theorem setBuf_cfg : (s.setBuf v).cfg = s.cfg := rfl
@[simp] theorem setBuf_cycle : (s.setBuf v).cycle = s.cycle := rfl
@[simp] theorem setBuf_inputs : (s.setBuf v).inputs = s.inputs := rfl
@[simp] theorem setBuf_cbarg : (s.setBuf v).cbarg = s.cbarg := rfl
@[simp] theorem setBuf_result : (s.setBuf v).result = s.result := rfl
@[simp] theorem setBuf_status : (s.setBuf v).status = s.status := rfl
@[simp] theorem setBuf_intcon : (s.setBuf v).intcon = s.intcon := rfl
@[simp] theorem setBuf_seq : (s.setBuf v).seq = s.seq := rfl
@[simp] theorem setBuf_pinDir : (s.setBuf v).pinDir = s.pinDir := rfl
@[simp] theorem setBuf_pinLat : (s.setBuf v).pinLat = s.pinLat := rfl
@[simp] theorem setBuf_pinQ : (s.setBuf v).pinQ = s.pinQ := rfl
@[simp] theorem setBuf_pinIn : (s.setBuf v).pinIn = s.pinIn := rfl
@[simp] theorem setBuf_tick : (s.setBuf v).tick = s.tick := rfl
@[simp] theorem setBuf_tt : (s.setBuf v).tt = s.tt := rfl
@[simp] theorem setBuf_rt : (s.setBuf v).rt = s.rt := rfl
@[simp] theorem setBuf_rf : (s.setBuf v).rf = s.rf := rfl
@[simp] theorem setBuf_buf : (s.setBuf v).buf = v := rfl
@[simp] theorem setBuf_evt : (s.setBuf v).evt = s.evt := rfl
@[simp] theorem setBuf_isrBusy : (s.setBuf v).isrBusy = s.isrBusy := rfl
@[simp] theorem setBuf_readData : (s.setBuf v).readData = s.readData := rfl
@[simp] theorem setBuf_callback : (s.setBuf v).callback = s.callback := rfl
end setBuf

section setEvt
variable (s : State) (v : List EvtSlot)
@[simp] theorem setEvt_cfg : (s.setEvt v).cfg = s.cfg := rfl
@[simp] theorem setEvt_cycle : (s.setEvt v).cycle = s.cycle := rfl
@[simp] theorem setEvt_inputs : (s.setEvt v).inputs = s.inputs := rfl
@[simp] theorem setEvt_cbarg : (s.setEvt v).cbarg = s.cbarg := rfl
@[simp] theorem setEvt_result : (s.setEvt v).result = s.result := rfl
@[simp] theorem setEvt_status : (s.setEvt v).status = s.status := rfl
@[simp] theorem setEvt_intcon : (s.setEvt v).intcon = s.intcon := rfl
@[simp] theorem setEvt_seq : (s.setEvt v).seq = s.seq := rfl
@[simp] theorem setEvt_pinDir : (s.setEvt v).pinDir = s.pinDir := rfl
@[simp] theorem setEvt_pinLat : (s.setEvt v).pinLat = s.pinLat := rfl
@[simp] theorem setEvt_pinQ : (s.setEvt v).pinQ = s.pinQ := rfl
@[simp] theorem setEvt_pinIn : (s.setEvt v).pinIn = s.pinIn := rfl
@[simp] theorem setEvt_tick : (s.setEvt v).tick = s.tick := rfl
@[simp] theorem setEvt_tt : (s.setEvt v).tt = s.tt := rfl
@[simp] theorem setEvt_rt : (s.setEvt v).rt = s.rt := rfl
@[simp] theorem setEvt_rf : (s.setEvt v).rf = s.rf := rfl
@[simp] theorem setEvt_buf : (s.setEvt v).buf = s.buf := rfl
@[simp] theorem setEvt_evt : (s.setEvt v).evt = v := rfl
@[simp] theorem setEvt_isrBusy : (s.setEvt v).isrBusy = s.isrBusy := rfl
@[simp] theorem setEvt_readData : (s.setEvt v).readData = s.readData := rfl
@[simp] theorem setEvt_callback : (s.setEvt v).callback = s.callback := rfl
end setEvt

section setIsrBusy
variable (s : State) (v : Nat)
@[simp] theorem setIsrBusy_cfg : (s.setIsrBusy v).cfg = s.cfg := rfl
@[simp] theorem setIsrBusy_cycle : (s.setIsrBusy v).cycle = s.cycle := rfl
@[simp] theorem setIsrBusy_inputs : (s.setIsrBusy v).inputs = s.inputs := rfl
@[simp] theorem setIsrBusy_cbarg : (s.setIsrBusy v).cbarg = s.cbarg := rfl
@[simp] theorem setIsrBusy_result : (s.setIsrBusy v).result = s.result := rfl
@[simp] theorem setIsrBusy_status : (s.setIsrBusy v).status = s.status := rfl
@[simp] theorem setIsrBusy_intcon : (s.setIsrBusy v).intcon = s.intcon := rfl
@[simp] theorem setIsrBusy_seq : (s.setIsrBusy v).seq = s.seq := rfl
@[simp] theorem setIsrBusy_pinDir : (s.setIsrBusy v).pinDir = s.pinDir := rfl
@[simp] theorem setIsrBusy_pinLat : (s.setIsrBusy v).pinLat = s.pinLat := rfl
@[simp] theorem setIsrBusy_pinQ : (s.setIsrBusy v).pinQ = s.pinQ := rfl
@[simp] theorem setIsrBusy_pinIn : (s.setIsrBusy v).pinIn = s.pinIn := rfl
@[simp] theorem setIsrBusy_tick : (s.setIsrBusy v).tick = s.tick := rfl
@[simp] theorem setIsrBusy_tt : (s.setIsrBusy v).tt = s.tt := rfl
@[simp] theorem setIsrBusy_rt : (s.setIsrBusy v).rt = s.rt := rfl
@[simp] theorem setIsrBusy_rf : (s.setIsrBusy v).rf = s.rf := rfl
@[simp] theorem setIsrBusy_buf : (s.setIsrBusy v).buf = s.buf := rfl
@[simp] theorem setIsrBusy_evt : (s.setIsrBusy v).evt = s.evt := rfl
@[simp] theorem setIsrBusy_isrBusy : (s.setIsrBusy v).isrBusy = v := rfl
@[simp] theorem setIsrBusy_readData : (s.setIsrBusy v).readData = s.readData := rfl
@[simp] theorem setIsrBusy_callback : (s.setIsrBusy v).callback = s.callback := rfl
end setIsrBusy

section setReadData
variable (s : State) (v : Option Word)
@[simp] theorem setReadData_cfg : (s.setReadData v).cfg = s.cfg := rfl
@[simp] theorem setReadData_cycle : (s.setReadData v).cycle = s.cycle := rfl
@[simp] theorem setReadData_inputs : (s.setReadData v).inputs = s.inputs := rfl
@[simp] theorem setReadData_cbarg : (s.setReadData v).cbarg = s.cbarg := rfl
@[simp] theorem setReadData_result : (s.setReadData v).result = s.result := rfl
@[simp] theorem setReadData_status : (s.setReadData v).status = s.status := rfl
@[simp] theorem setReadData_intcon : (s.setReadData v).intcon = s.intcon := rfl
@[simp] theorem setReadData_seq : (s.setReadData v).seq = s.seq := rfl
@[simp] theorem setReadData_pinDir : (s.setReadData v).pinDir = s.pinDir := rfl
@[simp] theorem setReadData_pinLat : (s.setReadData v).pinLat = s.pinLat := rfl
@[simp] theorem setReadData_pinQ : (s.setReadData v).pinQ = s.pinQ := rfl
@[simp] theorem setReadData_pinIn : (s.setReadData v).pinIn = s.pinIn := rfl
@[simp] theorem setReadData_tick : (s.setReadData v).tick = s.tick := rfl
@[simp] theorem setReadData_tt : (s.setReadData v).tt = s.tt := rfl
@[simp] theorem setReadData_rt : (s.setReadData v).rt = s.rt := rfl
@[simp] theorem setReadData_rf : (s.setReadData v).rf = s.rf := rfl
@[simp] theorem setReadData_buf : (s.setReadData v).buf = s.buf := rfl
@[simp] theorem setReadData_evt : (s.setReadData v).evt = s.evt := rfl
@[simp] theorem setReadData_isrBusy : (s.setReadData v).isrBusy = s.isrBusy := rfl
@[simp] theorem setReadData_readData : (s.setReadData v).readData = v := rfl
@[simp] theorem setReadData_callback : (s.setReadData v).callback = s.callback := rfl
end setReadData

section setCallback
variable (s : State) (v : CallbackPort)
@[simp] theorem setCallback_cfg : (s.setCallback v).cfg = s.cfg := rfl
@[simp] theorem setCallback_cycle : (s.setCallback v).cycle = s.cycle := rfl
@[simp] theorem setCallback_inputs : (s.setCallback v).inputs = s.inputs := rfl
@[simp] theorem setCallback_cbarg : (s.setCallback v).cbarg = s.cbarg := rfl
@[simp] theorem setCallback_result : (s.setCallback v).result = s.result := rfl
@[simp] theorem setCallback_status : (s.setCallback v).status = s.status := rfl
@[simp] theorem setCallback_intcon : (s.setCallback v).intcon = s.intcon := rfl
@[simp] theorem setCallback_seq : (s.setCallback v).seq = s.seq := rfl
@[simp] theorem setCallback_pinDir : (s.setCallback v).pinDir = s.pinDir := rfl
@[simp] theorem setCallback_pinLat : (s.setCallback v).pinLat = s.pinLat := rfl
@[simp] theorem setCallback_pinQ : (s.setCallback v).pinQ = s.pinQ := rfl
@[simp] theorem setCallback_pinIn : (s.setCallback v).pinIn = s.pinIn := rfl
@[simp] theorem setCallback_tick : (s.setCallback v).tick = s.tick := rfl
@[simp] theorem setCallback_tt : (s.setCallback v).tt = s.tt := rfl
@[simp] theorem setCallback_rt : (s.setCallback v).rt = s.rt := rfl
@[simp] theorem setCallback_rf : (s.setCallback v).rf = s.rf := rfl
@[simp] theorem setCallback_buf : (s.setCallback v).buf = s.buf := rfl
@[simp] theorem setCallback_evt : (s.setCallback v).evt = s.evt := rfl
@[simp] theorem setCallback_isrBusy : (s.setCallback v).isrBusy = s.isrBusy := rfl
@[simp] theorem setCallback_readData : (s.setCallback v).readData = s.readData := rfl
@[simp] theorem setCallback_callback : (s.setCallback v).callback = v := rfl
end setCallback

end Sys2Proof.Machine.State
end

