-- ==== Sys2Proof/Laws/Ops.lean ====
section
/-! SUPPORT. Each shared operation says once what it can do: single bits, the timers, the EVT slots, the
sequencer's cycle and the taking of an interrupt. Later proofs cite these and unfold none of them. -/

namespace Sys2Proof.Machine

/-! ## Bits -/

/-- The bits of a word with one bit set. -/
theorem getLsbD_setBit {n : Nat} (v : BitVec n) (k j : Nat) (b : Bool) (hj : j < n) :
    (setBit v k b).getLsbD j = if j = k then b else v.getLsbD j := by
  unfold setBit
  by_cases hjk : j = k
  · subst hjk
    cases b <;> simp [hj]
  · cases b
    · by_cases hlt : j < k
      · simp [hj, hlt, hjk]
      · simp [hj, hlt, hjk, show j - k ≠ 0 by omega]
    · by_cases hlt : j < k
      · simp [hj, hlt, hjk]
      · simp [hj, hlt, hjk, show j - k ≠ 0 by omega]

/-! ## The EVT slots -/

/-- The slot just written, where it exists. -/
theorem slotAt_setSlot_same {s : State} {k : Nat} (e : EvtSlot) (h : k < s.evt.length) :
    slotAt (setSlot k e s) k = e := by
  simp [slotAt, setSlot, h]

/-- Writing a slot leaves the others. -/
theorem slotAt_setSlot_other {s : State} {j k : Nat} (e : EvtSlot) (h : j ≠ k) :
    slotAt (setSlot k e s) j = slotAt s j := by
  simp [slotAt, setSlot, List.getD_eq_getElem?_getD, List.getElem?_set_ne h.symm]

/-- The number of slots does not change. -/
@[simp] theorem setSlot_evt_length (k : Nat) (e : EvtSlot) (s : State) :
    (setSlot k e s).evt.length = s.evt.length := by
  simp [setSlot]

/-! ## The timers -/

/-- What one timer cycle can do (10_state.md R30): nothing while off, a prescaler count, a count, or an event. -/
theorem timerStep_cases (w : Nat) (t : Timer) :
    (t.on = false ∧ timerStep w t = (t, false)) ∨
    (t.on = true ∧ t.psc.toNat + 1 < t.ps.toNat ∧ timerStep w t = ({ t with psc := t.psc + 1 }, false)) ∨
    (t.on = true ∧ t.ps.toNat ≤ t.psc.toNat + 1 ∧ t.tmr ≠ t.pr ∧
      timerStep w t = ({ t with psc := 0, tmr := BitVec.ofNat 16 ((t.tmr.toNat + 1) % 2 ^ w) }, false)) ∨
    (t.on = true ∧ t.ps.toNat ≤ t.psc.toNat + 1 ∧ t.tmr = t.pr ∧
      timerStep w t = ({ t with psc := 0, tmr := 0 }, true)) := by
  unfold timerStep
  by_cases h1 : t.on = true
  · by_cases h2 : t.ps.toNat ≤ t.psc.toNat + 1
    · by_cases h3 : t.tmr = t.pr
      · exact .inr (.inr (.inr ⟨h1, h2, h3, by simp [h1, h2, h3]⟩))
      · exact .inr (.inr (.inl ⟨h1, h2, h3, by simp [h1, h2, h3]⟩))
    · exact .inr (.inl ⟨h1, by omega, by simp [h1, h2]⟩)
  · exact .inl ⟨by simpa using h1, by simp [h1]⟩

/-! The timers' cycle writes the timers, the pending flags and the `*_LOST` bits only. -/

@[simp] theorem timersStep_cfg (s : State) : (timersStep s).cfg = s.cfg := by
  simp [timersStep, evtEvents, rfEvent, tickEvent]
@[simp] theorem timersStep_cycle (s : State) : (timersStep s).cycle = s.cycle := by
  simp [timersStep, evtEvents, rfEvent, tickEvent]
@[simp] theorem timersStep_inputs (s : State) : (timersStep s).inputs = s.inputs := by
  simp [timersStep, evtEvents, rfEvent, tickEvent]
@[simp] theorem timersStep_cbarg (s : State) : (timersStep s).cbarg = s.cbarg := by
  simp [timersStep, evtEvents, rfEvent, tickEvent]
@[simp] theorem timersStep_result (s : State) : (timersStep s).result = s.result := by
  simp [timersStep, evtEvents, rfEvent, tickEvent]
@[simp] theorem timersStep_seq (s : State) : (timersStep s).seq = s.seq := by
  simp [timersStep, evtEvents, rfEvent, tickEvent]
@[simp] theorem timersStep_pinDir (s : State) : (timersStep s).pinDir = s.pinDir := by
  simp [timersStep, evtEvents, rfEvent, tickEvent]
@[simp] theorem timersStep_pinLat (s : State) : (timersStep s).pinLat = s.pinLat := by
  simp [timersStep, evtEvents, rfEvent, tickEvent]
@[simp] theorem timersStep_pinQ (s : State) : (timersStep s).pinQ = s.pinQ := by
  simp [timersStep, evtEvents, rfEvent, tickEvent]
@[simp] theorem timersStep_pinIn (s : State) : (timersStep s).pinIn = s.pinIn := by
  simp [timersStep, evtEvents, rfEvent, tickEvent]
@[simp] theorem timersStep_tick (s : State) : (timersStep s).tick = s.tick := by
  simp [timersStep, evtEvents, rfEvent, tickEvent]
@[simp] theorem timersStep_rf (s : State) : (timersStep s).rf = s.rf := by
  simp [timersStep, evtEvents, rfEvent, tickEvent]
@[simp] theorem timersStep_buf (s : State) : (timersStep s).buf = s.buf := by
  simp [timersStep, evtEvents, rfEvent, tickEvent]
@[simp] theorem timersStep_isrBusy (s : State) : (timersStep s).isrBusy = s.isrBusy := by
  simp [timersStep, evtEvents, rfEvent, tickEvent]
@[simp] theorem timersStep_readData (s : State) : (timersStep s).readData = s.readData := by
  simp [timersStep, evtEvents, rfEvent, tickEvent]
@[simp] theorem timersStep_callback (s : State) : (timersStep s).callback = s.callback := by
  simp [timersStep, evtEvents, rfEvent, tickEvent]

/-- The TICK timer after the timers' cycle. -/
theorem timersStep_tt (s : State) : (timersStep s).tt = (timerStep s.cfg.tmrW s.tt).1 := by
  simp [timersStep, evtEvents, rfEvent, tickEvent]

/-- The RF timer after the timers' cycle. -/
theorem timersStep_rt (s : State) : (timersStep s).rt = (timerStep s.cfg.tmrW s.rt).1 := by
  simp [timersStep, evtEvents, rfEvent, tickEvent]

/-- The EVT slots after the timers' cycle: only their timers have moved. -/
theorem timersStep_evt (s : State) :
    (timersStep s).evt = s.evt.map (fun e => { e with t := (timerStep s.cfg.tmrW e.t).1 }) := by
  simp [timersStep, evtEvents, rfEvent, tickEvent]

/-- INTCON after the timers' cycle: an event sets its pending flag, enabled or not (60_exceptions.md R291). -/
theorem timersStep_intcon (s : State) :
    (timersStep s).intcon = { s.intcon with
      ifTick := s.intcon.ifTick || (timerStep s.cfg.tmrW s.tt).2
      ifRf := s.intcon.ifRf || (timerStep s.cfg.tmrW s.rt).2
      ifEvt := s.intcon.ifEvt ||| evtFired s.cfg.tmrW s.evt 0 } := by
  simp [timersStep, evtEvents, rfEvent, tickEvent]

/-- STATUS after the timers' cycle: an event that finds its pending flag set raises its `*_LOST` bit. -/
theorem timersStep_status (s : State) :
    (timersStep s).status = { s.status with
      tickLost := s.status.tickLost || ((timerStep s.cfg.tmrW s.tt).2 && s.intcon.ifTick)
      rfLost := s.status.rfLost || ((timerStep s.cfg.tmrW s.rt).2 && s.intcon.ifRf)
      evtLost := s.status.evtLost || (s.intcon.ifEvt &&& evtFired s.cfg.tmrW s.evt 0 != 0) } := by
  simp [timersStep, evtEvents, rfEvent, tickEvent]

/-! ## The sequencer -/

/-- What a cycle of SEQ can do (10_state.md R25): nothing while idle, one count of a dwell, or the entry of a
phase, the first one of an accepted command or the one after a phase that is over. -/
theorem seqStep_cases {P : MicroProgram} {s t : State} (h : seqStep P s = .ok t) :
    (s.seq.busy = false ∧ t = s) ∨
    (s.seq.busy = true ∧ s.seq.fresh = false ∧ s.seq.cnt ≠ 0 ∧
      t = s.setSeq { s.seq with cnt := s.seq.cnt - 1 }) ∨
    (s.seq.busy = true ∧ s.seq.fresh = true ∧
      enterPhases P (P.len - s.seq.phase.toNat) (s.setSeq { s.seq with fresh := false }) = .ok t) ∨
    (s.seq.busy = true ∧ s.seq.fresh = false ∧ s.seq.cnt = 0 ∧
      enterPhases P (P.len - (s.seq.phase + 1).toNat)
        (s.setSeq { s.seq with phase := s.seq.phase + 1 }) = .ok t) := by
  unfold seqStep at h
  split at h
  · split at h
    · exact .inr (.inr (.inl ⟨‹_›, ‹_›, h⟩))
    · rename_i hb hf
      have hf : s.seq.fresh = false := by simpa using hf
      split at h
      · exact .inr (.inr (.inr ⟨hb, hf, ‹_›, h⟩))
      · exact .inr (.inl ⟨hb, hf, ‹_›, (Except.ok.inj h).symm⟩)
  · exact .inl ⟨by simpa using ‹¬s.seq.busy = true›, (Except.ok.inj h).symm⟩

/-- A property that a program's actions, its completion and every write of SEQ keep is kept by the entry of
phases. -/
theorem enterPhases_keeps {P : MicroProgram} (Q : State → Prop)
    (hseq : ∀ s q, Q s → Q (s.setSeq q)) (hfin : ∀ s, Q s → Q (P.finish s))
    (hact : ∀ k s t, Q s → P.action k s = .ok t → Q t) :
    ∀ r s t, Q s → enterPhases P r s = .ok t → Q t := by
  intro r
  induction r with
  | zero =>
    intro s t hs h
    cases h
    exact hseq _ _ (hfin _ hs)
  | succ r ih =>
    intro s t hs h
    simp only [enterPhases] at h
    split at h
    · cases h
    · rename_i s' hact'
      have hs' := hact _ _ _ hs hact'
      split at h
      · exact ih _ _ (hseq _ _ hs') h
      · cases h; exact hseq _ _ hs'

/-- A property that a program's actions, its completion and every write of SEQ keep is kept by a cycle of SEQ. -/
theorem seqStep_keeps {P : MicroProgram} (Q : State → Prop)
    (hseq : ∀ s q, Q s → Q (s.setSeq q)) (hfin : ∀ s, Q s → Q (P.finish s))
    (hact : ∀ k s t, Q s → P.action k s = .ok t → Q t) {s t : State} (hs : Q s)
    (h : seqStep P s = .ok t) : Q t := by
  rcases seqStep_cases h with ⟨-, rfl⟩ | ⟨-, -, -, rfl⟩ | ⟨-, -, h⟩ | ⟨-, -, -, h⟩
  · exact hs
  · exact hseq _ _ hs
  · exact enterPhases_keeps Q hseq hfin hact _ _ _ (hseq _ _ hs) h
  · exact enterPhases_keeps Q hseq hfin hact _ _ _ (hseq _ _ hs) h

/-- A cycle of SEQ answers a next state exactly where its micro-program step does. -/
@[simp] theorem runProgram_next {P : MicroProgram} {s t : State} :
    runProgram P s = .next t ↔ seqStep P s = .ok t := by
  unfold runProgram toOut
  split <;> simp_all

/-- A cycle of SEQ is never a refusal. -/
theorem runProgram_not_refused {P : MicroProgram} {s : State} {r : Refusal} :
    runProgram P s ≠ .refused r := by
  unfold runProgram toOut
  split <;> simp

/-- A cycle of SEQ faults exactly where its micro-program step does. -/
@[simp] theorem runProgram_fault {P : MicroProgram} {s : State} {f : Fault} :
    runProgram P s = .fault f ↔ seqStep P s = .error f := by
  unfold runProgram toOut
  split <;> simp_all

/-- The first cycle of an immediate command: its action, then completion. -/
theorem seqStep_immediate {act : State → Except Fault State} {s : State}
    (hb : s.seq.busy = true) (hf : s.seq.fresh = true) (hp : s.seq.phase = 0) :
    seqStep (immediate act) s =
      match act (s.setSeq { s.seq with fresh := false }) with
      | .error f => .error f
      | .ok t => .ok (t.setSeq { t.seq with cnt := 0, phase := t.seq.phase + 1, busy := false }) := by
  rw [seqStep, if_pos hb, if_pos hf, hp]
  show enterPhases (immediate act) 1 _ = _
  rw [enterPhases]
  simp only [immediate]
  cases act (s.setSeq { s.seq with fresh := false }) with
  | error f => rfl
  | ok t => simp [enterPhases, completeCommand, State.setSeq]

/-! ## Taking an interrupt -/

/-- What serving a source can do (60_exceptions.md R295). -/
theorem takeInterrupt_ok {handler : State → Except Fault State} {src : IntSource} {s t : State}
    (h : takeInterrupt handler src s = .ok t) :
    ∃ u, handler (clearPending src s) = .ok u ∧ t = u.setIsrBusy (isrCycles s.cfg src) := by
  unfold takeInterrupt at h
  split at h
  · cases h
  · exact ⟨_, ‹_›, (Except.ok.inj h).symm⟩

/-- Clearing a pending flag writes INTCON only. -/
theorem clearPending_frame (src : IntSource) (s : State) :
    clearPending src s = s.setIntcon (clearPending src s).intcon := by
  cases src <;> rfl

/-- The source to be served is ready and exists (60_exceptions.md R291, R292). -/
theorem readySource_ready {s : State} {src : IntSource} (h : readySource s = some src) :
    isReady s src = true ∧ src ∈ sources s.cfg :=
  ⟨List.find?_some h, List.mem_of_find?_eq_some h⟩

end Sys2Proof.Machine
end

