-- ==== Sys2Proof/Laws/Exec.lean ====
section
/-! SUPPORT. Every command is one cycle of SEQ on its micro-program, so what a micro-program's actions and its
completion keep, `exec` keeps. -/

namespace Sys2Proof.Machine

/-- The micro-program of each command (10_state.md R25). -/
def programOf (c : Config) : Instr → MicroProgram
  | .nop => immediate (fun s => .ok (s.setResult 0))
  | .millisInit => immediate (fun s => .ok (millisInitAction s))
  | .millis => immediate (fun s => .ok (s.setResult s.tick))
  | .micros => immediate (fun s => .ok (s.setResult (microsValue s)))
  | .delayUs n => delayUsProgram c n
  | .delayMs n => delayMsProgram c n
  | .owReset pin => onPin c pin (owResetProgram c pin.toNat)
  | .owReadBit pin => onPin c pin (owReadBitProgram c pin.toNat)
  | .owWriteBit pin bit => onPin c pin (owWriteBitProgram c pin.toNat (bit == 1))
  | .owReadByte pin => onPin c pin (owReadByteProgram c pin.toNat)
  | .owWriteByte pin byte => onPin c pin (owWriteByteProgram c pin.toNat byte)
  | .manEncode b => immediate (fun s => .ok (s.setResult (0#16 ++ manOut1 b ++ manOut0 b)))
  | .manDecode in1 in0 => immediate (fun s => .ok (manDecodeAction in1 in0 s))
  | .manNibbler b => immediate (fun s => .ok (manNibblerAction b s))
  | .rfInit pin baud =>
    if rfInitUsable c pin baud then immediate (fun s => .ok (rfInitAction pin baud s))
    else refusedProgram argRefused
  | .rfBegin => immediate (fun s => .ok (rfArm 2 false s))
  | .rfBeginBytes m =>
    if maxBytesUsable c m then immediate (fun s => .ok (rfArm m true s)) else refusedProgram argRefused
  | .rfComplete => immediate (fun s => .ok (s.setResult (if s.rf.mode = .msg then 1 else 0)))
  | .rfGetMsg => immediate rfGetMsgAction
  | .rfStop => immediate (fun s => .ok ((setMode .idle s).setResult 0))
  | .rfRdBuf index =>
    if index.toNat < c.rfBufCap then immediate (rfRdBufAction index.toNat) else refusedProgram argRefused
  | .evtOnTimer slot unit delay =>
    if slotUsable c slot && unit != 3 then
      immediate (fun s => .ok (evtOnTimerAction slot.toNat unit delay s))
    else refusedProgram evtErrArg
  | .evtRelease slot =>
    if slotUsable c slot then immediate (fun s => .ok (evtReleaseAction slot.toNat s))
    else refusedProgram evtErrArg

/-- A command's cycle is a cycle of SEQ on its micro-program. -/
theorem exec_eq_runProgram (i : Instr) (s : State) : exec i s = runProgram (programOf s.cfg i) s := by
  cases i <;> rfl

/-- A command's cycle answers a next state exactly where its micro-program's step does. -/
theorem exec_next {i : Instr} {s t : State} :
    exec i s = .next t ↔ seqStep (programOf s.cfg i) s = .ok t := by
  rw [exec_eq_runProgram, runProgram_next]

/-- No command is ever a refusal. -/
theorem exec_not_refused (i : Instr) (s : State) (r : Refusal) : exec i s ≠ .refused r := by
  rw [exec_eq_runProgram]
  exact runProgram_not_refused

/-- What a command's actions, its completion and every write of SEQ keep, its cycle keeps. -/
theorem exec_keeps {i : Instr} {s t : State} (Q : State → Prop)
    (hseq : ∀ u q, Q u → Q (u.setSeq q)) (hfin : ∀ u, Q u → Q ((programOf s.cfg i).finish u))
    (hact : ∀ k u v, Q u → (programOf s.cfg i).action k u = .ok v → Q v)
    (h : exec i s = .next t) (hs : Q s) : Q t :=
  seqStep_keeps Q hseq hfin hact hs (exec_next.1 h)

/-- The cycle of an idle SEQ changes nothing, whatever the command (10_state.md R25). -/
theorem exec_idle (i : Instr) {s : State} (h : s.seq.busy = false) : exec i s = .next s := by
  rw [exec_next, seqStep]
  simp [h]

/-- A cycle inside a dwell counts it down and changes nothing else (10_state.md R25). -/
theorem exec_dwell (i : Instr) {s : State} (hb : s.seq.busy = true) (hf : s.seq.fresh = false)
    (hc : s.seq.cnt ≠ 0) : exec i s = .next (s.setSeq { s.seq with cnt := s.seq.cnt - 1 }) := by
  rw [exec_next, seqStep]
  simp [hb, hf, show ¬ s.seq.cnt = 0#32 from hc]

end Sys2Proof.Machine
end

