-- ==== Sys2Proof/Laws/Handlers.lean ====
section
/-! SUPPORT. What the interrupt handlers and INT's dispatch can do (60_exceptions.md R295 to R298). -/

namespace Sys2Proof.Machine

section rf

variable (Q : State → Prop) (hrf : ∀ s r, Q s → Q (s.setRf r)) (hbuf : ∀ s m, Q s → Q (s.setBuf m))
  (hclamp : ∀ s, Q s → Q (raiseRfClamp s))
include hrf hclamp

/-- LearnLength writes the record and RF_CLAMP only (43_rf433.md R227). -/
theorem learnLength_keeps {v : Byte} {s : State} (hs : Q s) : Q (learnLength v s) := by
  simp only [learnLength]
  split
  · exact hrf _ _ (hclamp _ hs)
  · exact hrf _ _ hs

include hbuf

/-- EmitByte writes the record, BUF and RF_CLAMP only (43_rf433.md R226). -/
theorem emitByte_keeps {s t : State} (h : emitByte s = .ok t) (hs : Q s) : Q t := by
  simp only [emitByte] at h
  split at h
  · cases h
  · rename_i s1 h1
    have h1 : Q s1 := by
      split at h1
      · rw [(bufStore_ok h1).2]; exact hbuf _ _ hs
      · cases h1; exact hs
    cases h
    split
    · exact learnLength_keeps Q hrf hclamp (hrf _ _ h1)
    · exact hrf _ _ h1

/-- AddManBit writes the record, BUF and RF_CLAMP only (43_rf433.md R225). -/
theorem addManBit_keeps {b : Bool} {s t : State} (h : addManBit b s = .ok t) (hs : Q s) : Q t := by
  unfold addManBit at h
  generalize hr : s.setRf _ = s1 at h
  have h1 : Q s1 := hr ▸ hrf _ _ hs
  clear hr
  dsimp only at h
  split at h
  · split at h
    · cases h
    · cases h
      exact hrf _ _ (emitByte_keeps Q hrf hbuf hclamp ‹_› h1)
  · cases h; exact h1

/-- The end test and the add of DATA write the record, BUF and RF_CLAMP only (43_rf433.md R224). -/
theorem rfDataEdge_keeps {s t : State} (h : rfDataEdge s = .ok t) (hs : Q s) : Q t := by
  simp only [rfDataEdge] at h
  split at h
  · cases h; exact hrf _ _ hs
  · split at h
    · cases h
    · cases h
      exact hrf _ _ (addManBit_keeps Q hrf hbuf hclamp ‹_› hs)

/-- The part of an RF tick a mode selects writes the record, BUF and RF_CLAMP only. -/
theorem rfModeStep_keeps {m : RfMode} {tr : Bool} {s t : State} (h : rfModeStep m tr s = .ok t)
    (hs : Q s) : Q t := by
  cases m with
  | pre =>
    simp only [rfModeStep, rfPre] at h
    split at h <;> cases h
    · exact hrf _ _ hs
    · exact hs
  | sync =>
    simp only [rfModeStep, rfSync, rfSyncShort, rfSyncLong, setMode] at h
    split at h
    · split at h
      · cases h; exact hrf _ _ hs
      · cases h; exact hrf _ _ hs
      · split at h <;> cases h <;> exact hrf _ _ hs
    · cases h; exact hs
  | data =>
    simp only [rfModeStep, rfData] at h
    split at h
    · split at h
      · cases h; exact hrf _ _ hs
      · exact rfDataEdge_keeps Q hrf hbuf hclamp h hs
      · split at h
        · cases h
        · exact rfDataEdge_keeps Q hrf hbuf hclamp h (addManBit_keeps Q hrf hbuf hclamp ‹_› hs)
    · cases h; exact hs
  | msg => cases h; exact hs
  | idle => cases h; exact hs

/-- An RF tick writes the record, BUF and RF_CLAMP only (43_rf433.md R219). -/
theorem rfHandler_keeps {s t : State} (h : rfHandler s = .ok t) (hs : Q s) : Q t := by
  simp only [rfHandler] at h
  split at h
  · cases h; exact hs
  · split at h
    · cases h
    · cases h
      exact hrf _ _ (rfModeStep_keeps Q hrf hbuf hclamp ‹_› (hrf _ _ hs))

end rf

/-- An RF tick in MSG or IDLE changes nothing (43_rf433.md R228). -/
theorem rfHandler_stopped {s : State} (h : s.rf.mode = .msg ∨ s.rf.mode = .idle) :
    rfHandler s = .ok s := if_pos h

/-- The EVT handler writes its slot and the callback ports only (44_event_dispatcher.md R266). -/
theorem evtHandler_cases (k : Nat) (s : State) :
    ((slotAt s k).limit.toNat ≤ ((slotAt s k).count + 1).toNat ∧
      evtHandler k s = emitCallback k (slotAt s k).cb (setSlot k { slotAt s k with count := 0 } s)) ∨
    (((slotAt s k).count + 1).toNat < (slotAt s k).limit.toNat ∧
      evtHandler k s = setSlot k { slotAt s k with count := (slotAt s k).count + 1 } s) := by
  simp only [evtHandler]
  split
  · exact .inl ⟨‹_›, rfl⟩
  · exact .inr ⟨by omega, rfl⟩

/-- INT's dispatch does nothing, or serves the ready source of highest priority (60_exceptions.md R295). -/
theorem intDispatch_cases {s t : State} (h : intDispatch s = .ok t) :
    t = s ∨ ∃ src u, s.isrBusy = 0 ∧ readySource s = some src ∧
      handlerOf src (clearPending src s) = .ok u ∧ t = u.setIsrBusy (isrCycles s.cfg src) := by
  unfold intDispatch at h
  split at h
  · split at h
    · obtain ⟨u, hu, rfl⟩ := takeInterrupt_ok h
      exact .inr ⟨_, u, ‹_›, ‹_›, hu, rfl⟩
    · cases h; exact .inl rfl
  · cases h; exact .inl rfl

/-- No source is served while a handler is charged for (60_exceptions.md R295). -/
theorem intDispatch_busy {s : State} (h : s.isrBusy ≠ 0) : intDispatch s = .ok s := if_neg h

end Sys2Proof.Machine
end

