-- ==== Sys2Proof/Laws/Cycle.lean ====
section
/-! SUPPORT. What entering a phase does, one phase at a time, and what a host access and a whole clock cycle can do. -/

namespace Sys2Proof.Machine

/-! ## Phases (10_state.md R25) -/

/-- The first cycle of an accepted command enters its phase 0. -/
theorem seqStep_accepted {P : MicroProgram} {s : State} (h : Accepted s) :
    seqStep P s = enterPhases P P.len (s.setSeq { s.seq with fresh := false }) := by
  simp [seqStep, h.1, h.2.1, h.2.2.1]

/-- The cycle after phase `k`'s dwell enters phase `k + 1`. -/
theorem seqStep_phaseOver {P : MicroProgram} {s : State} {k : Nat} (h : PhaseOver s k) (hk : k + 1 < 2 ^ 32) :
    seqStep P s =
      enterPhases P (P.len - (k + 1)) (s.setSeq { s.seq with phase := BitVec.ofNat 32 (k + 1) }) := by
  have h1 : BitVec.ofNat 32 k + 1#32 = BitVec.ofNat 32 (k + 1) := BitVec.eq_of_toNat_eq (by simp)
  have h2 : (BitVec.ofNat 32 (k + 1)).toNat = k + 1 := by simp; omega
  simp only [seqStep, h.1, h.2.1, h.2.2.1, h.2.2.2]
  simp [h1, h2]

/-- Entering a phase with a positive dwell performs its action and spends the first cycle of the dwell. -/
theorem enterPhases_stop {P : MicroProgram} {r k : Nat} {s t : State} (hp : s.seq.phase = BitVec.ofNat 32 k)
    (hk : k < 2 ^ 32) (ha : P.action k s = .ok t) (hd : 0 < P.dwell k t) :
    enterPhases P (r + 1) s = .ok (t.setSeq { t.seq with cnt := BitVec.ofNat 32 (P.dwell k t - 1) }) := by
  have h2 : s.seq.phase.toNat = k := by rw [hp]; simp; omega
  simp [enterPhases, h2, ha, Nat.pos_iff_ne_zero.1 hd]

/-- Entering a phase with dwell 0 performs its action and falls through to the next phase. -/
theorem enterPhases_fall {P : MicroProgram} {r k : Nat} {s t : State} (hp : s.seq.phase = BitVec.ofNat 32 k)
    (hk : k < 2 ^ 32) (ha : P.action k s = .ok t) (hd : P.dwell k t = 0) :
    enterPhases P (r + 1) s =
      enterPhases P r (t.setSeq { t.seq with cnt := 0, phase := t.seq.phase + 1 }) := by
  have h2 : s.seq.phase.toNat = k := by rw [hp]; simp; omega
  simp [enterPhases, h2, ha, hd]

/-- After the last phase the command completes. -/
theorem enterPhases_done (P : MicroProgram) (s : State) : enterPhases P 0 s = .ok (completeCommand P s) := rfl

/-! ## The host's access (20_memory.md R72) -/

/-- What a write to the register port can do. -/
theorem regWrite_cases (widx : BitVec 7) (v : Word) (s : State) :
    regWrite widx v s = raiseOvr s ∧ s.seq.busy = true ∨
    regWrite widx v s = raiseIll s ∧ s.seq.busy = false ∧ legalWord v = false ∨
    regWrite widx v s = acceptCommand v s ∧ s.seq.busy = false ∧ legalWord v = true ∨
    regWrite widx v s = s.setCbarg v ∨ regWrite widx v s = writeStatus v s ∨
    regWrite widx v s = writeIntcon v s ∨ regWrite widx v s = s := by
  unfold regWrite writeCmd
  split
  · cases hb : s.seq.busy
    · cases hl : legalWord v
      · exact .inr (.inl ⟨rfl, rfl, rfl⟩)
      · exact .inr (.inr (.inl ⟨rfl, rfl, rfl⟩))
    · exact .inl ⟨rfl, rfl⟩
  · split
    · exact .inr (.inr (.inr (.inl rfl)))
    · split
      · exact .inr (.inr (.inr (.inr (.inl rfl))))
      · split
        · exact .inr (.inr (.inr (.inr (.inr (.inl rfl)))))
        · exact .inr (.inr (.inr (.inr (.inr (.inr rfl)))))

/-! ## The pads (10_state.md R26) -/

/-- The mask of the pins that exist, bit for bit. -/
theorem pinMask_getLsbD (c : Config) {p : Nat} (hp : p < 32) : (pinMask c).getLsbD p = decide (p < c.npins) := by
  rw [pinMask, BitVec.getLsbD_ofNat, Nat.testBit_two_pow_sub_one]
  simp [hp]

/-- A pad's level: the presented one, but 0 where the block drives the pin low or the pin does not exist. -/
theorem padLevels_getLsbD (s : State) (v : BitVec 32) {p : Nat} (hp : p < 32) :
    (padLevels s v).getLsbD p =
      (decide (p < s.cfg.npins) && v.getLsbD p && !(s.pinDir.getLsbD p && !s.pinLat.getLsbD p)) := by
  simp only [padLevels, BitVec.getLsbD_and, BitVec.getLsbD_not, pinMask_getLsbD s.cfg hp, hp, decide_true,
    Bool.true_and]
  cases decide (p < s.cfg.npins) <;> cases v.getLsbD p <;> simp

/-- What the start of a cycle writes, and nothing else. -/
theorem beginCycle_eq (inp : Input) (s : State) :
    beginCycle inp s = { s with
      pinIn := padLevels s inp.pins, callback := CallbackPort.quiet, readData := none, cycle := s.cycle + 1,
      inputs := s.inputs.tail } := rfl

/-! ## The cycle (70_reset_and_hazards.md R330) -/

/-- What a clock cycle that answers a next state has done: reset; or its first steps, and then nothing more than the
countdown of `isr_busy`, or one cycle of the command in progress. -/
theorem step_cases {s t : State} (h : step s = .next t) :
    ((nextInput s).rst = true ∧ t = resetCycle s) ∨
    ((nextInput s).rst = false ∧ ∃ s1, beforeSeq s = .ok s1 ∧
      (((s.seq.busy = false ∨ 0 < s1.isrBusy) ∧ t = endCycle (isrCountdown s1)) ∨
        (s.seq.busy = true ∧ s1.isrBusy = 0 ∧
          ∃ i u, decode s1.seq.cmd = .ok i ∧ exec i (isrCountdown s1) = .next u ∧ t = endCycle u))) := by
  unfold step at h
  split at h
  · cases h; exact .inl ⟨‹_›, rfl⟩
  · refine .inr ⟨by simpa using ‹¬(nextInput s).rst = true›, ?_⟩
    unfold runCycle at h
    split at h
    · cases h
    · rename_i s1 h1
      refine ⟨s1, h1, ?_⟩
      have hc : (isrCountdown s1).seq.cmd = s1.seq.cmd := rfl
      simp only [afterInt, seqCycle, held, fetchCommand, hc] at h
      split at h
      · rename_i hg
        simp only [Bool.and_eq_true, Bool.not_eq_true', decide_eq_false_iff_not, Nat.not_lt, Nat.le_zero] at hg
        refine .inr ⟨hg.1, hg.2, ?_⟩
        split at h
        · rename_i i hi
          refine ⟨i, ?_⟩
          cases he : exec i (isrCountdown s1) with
          | next u => rw [he] at h; cases h; exact ⟨u, hi, rfl, rfl⟩
          | fault f => rw [he] at h; cases h
          | refused r => rw [he] at h; cases h
        · cases h
      · rename_i hg
        cases h
        refine .inl ⟨?_, rfl⟩
        cases hb : s.seq.busy
        · exact .inl rfl
        · right
          simpa [hb, isrCountdown, Nat.pos_iff_ne_zero] using hg

end Sys2Proof.Machine
end

