-- ==== Sys2Proof/Laws/PerInstr.lean ====
section
/-! SUPPORT. Facts proved one command at a time: the word of every command carries an opcode of the table
(30_encoding.md R105). -/

namespace Sys2Proof

/-- The OP field of a word built from its fields (30_encoding.md R100). -/
@[simp] theorem opField_commandWord (op a : Byte) (b : Half) : opField (commandWord op a b) = op := by
  ext i hi
  simp only [opField, commandWord, BitVec.getElem_extractLsb', BitVec.getLsbD_append]
  simp [show ¬ 24 + i < 16 by omega, show ¬ 24 + i - 16 < 8 by omega, show 24 + i - 16 - 8 = i by omega,
    BitVec.getLsbD_eq_getElem hi]

/-- The A field of a word built from its fields. -/
@[simp] theorem aField_commandWord (op a : Byte) (b : Half) : aField (commandWord op a b) = a := by
  ext i hi
  simp only [aField, commandWord, BitVec.getElem_extractLsb', BitVec.getLsbD_append]
  simp [show ¬ 16 + i < 16 by omega, show 16 + i - 16 = i by omega, hi]

/-- The B field of a word built from its fields. -/
@[simp] theorem bField_commandWord (op a : Byte) (b : Half) : bField (commandWord op a b) = b := by
  ext i hi
  simp only [bField, commandWord, BitVec.getElem_extractLsb', BitVec.getLsbD_append]
  simp [hi]

end Sys2Proof

namespace Sys2Proof.Laws.KnownOpcode

/-- The word of the command carries an opcode of the table. -/
def Statement (i : Instr) : Prop := (rowOf (opField (encode i))).isSome = true

theorem nop : Statement .nop := rfl

theorem millisInit : Statement .millisInit := rfl

theorem millis : Statement .millis := rfl

theorem micros : Statement .micros := rfl

theorem delayUs (n : Half) : Statement (.delayUs n) := by
  simp [Statement, encode]; rfl

theorem delayMs (n : Half) : Statement (.delayMs n) := by
  simp [Statement, encode]; rfl

theorem owReset (pin : Byte) : Statement (.owReset pin) := by
  simp [Statement, encode]; rfl

theorem owReadBit (pin : Byte) : Statement (.owReadBit pin) := by
  simp [Statement, encode]; rfl

theorem owWriteBit (pin : Byte) (bit : BitVec 1) : Statement (.owWriteBit pin bit) := by
  simp [Statement, encode]; rfl

theorem owReadByte (pin : Byte) : Statement (.owReadByte pin) := by
  simp [Statement, encode]; rfl

theorem owWriteByte (pin byte : Byte) : Statement (.owWriteByte pin byte) := by
  simp [Statement, encode]; rfl

theorem manEncode (byte : Byte) : Statement (.manEncode byte) := by
  simp [Statement, encode]; rfl

theorem manDecode (in1 in0 : Byte) : Statement (.manDecode in1 in0) := by
  simp [Statement, encode]; rfl

theorem manNibbler (byte : Byte) : Statement (.manNibbler byte) := by
  simp [Statement, encode]; rfl

theorem rfInit (pin : Byte) (baud : Half) : Statement (.rfInit pin baud) := by
  simp [Statement, encode]; rfl

theorem rfBegin : Statement .rfBegin := rfl

theorem rfBeginBytes (m : Byte) : Statement (.rfBeginBytes m) := by
  simp [Statement, encode]; rfl

theorem rfComplete : Statement .rfComplete := rfl

theorem rfGetMsg : Statement .rfGetMsg := rfl

theorem rfStop : Statement .rfStop := rfl

theorem rfRdBuf (index : Byte) : Statement (.rfRdBuf index) := by
  simp [Statement, encode]; rfl

theorem evtOnTimer (slot : BitVec 4) (unit : BitVec 2) (delay : Half) : Statement (.evtOnTimer slot unit delay) := by
  simp [Statement, encode]; rfl

theorem evtRelease (slot : BitVec 4) : Statement (.evtRelease slot) := by
  simp [Statement, encode]; rfl

end Sys2Proof.Laws.KnownOpcode
end

