-- ==== Sys2Proof/Tests/Slice0.lean ====
section
/-! SUPPORT. Our own tests: the words of 30_encoding.md decoded, ill-formed words and configurations refused, one
step of each command against the values 95_test_vectors.md and the rules' own examples state, and for every
statement with hypotheses a state and operands that meet them. -/

namespace Sys2Proof.Tests

open Sys2Proof.Machine

/-! ## Decoding: each word written out from R100, R101 and R105 -/

/-- Words of 95_test_vectors.md V1 and V3 and of R117, one at least for every command. -/
theorem test_decode_tick_delay :
    decode 0x00000000#32 = .ok .nop ∧ decode 0x01000000#32 = .ok .millisInit ∧ decode 0x02000000#32 = .ok .millis ∧
      decode 0x03000000#32 = .ok .micros ∧ decode 0x080001E0#32 = .ok (.delayUs 480) ∧
      decode 0x09000003#32 = .ok (.delayMs 3) := by decide
theorem test_decode_onewire :
    decode 0x10030000#32 = .ok (.owReset 3) ∧ decode 0x11030000#32 = .ok (.owReadBit 3) ∧
      decode 0x12030001#32 = .ok (.owWriteBit 3 1) ∧ decode 0x13030000#32 = .ok (.owReadByte 3) ∧
      decode 0x140300B0#32 = .ok (.owWriteByte 3 0xB0) := by decide
theorem test_decode_manchester :
    decode 0x200000A5#32 = .ok (.manEncode 0xA5) ∧ decode 0x21006699#32 = .ok (.manDecode 0x66 0x99) ∧
      decode 0x22000099#32 = .ok (.manNibbler 0x99) := by decide
theorem test_decode_rf :
    decode 0x300501F4#32 = .ok (.rfInit 5 500) ∧ decode 0x31000000#32 = .ok .rfBegin ∧
      decode 0x32000008#32 = .ok (.rfBeginBytes 8) ∧ decode 0x33000000#32 = .ok .rfComplete ∧
      decode 0x34000000#32 = .ok .rfGetMsg ∧ decode 0x35000000#32 = .ok .rfStop ∧
      decode 0x360000FE#32 = .ok (.rfRdBuf 254) := by decide
theorem test_decode_evt :
    decode 0x401101F4#32 = .ok (.evtOnTimer 1 1 500) ∧ decode 0x40230001#32 = .ok (.evtOnTimer 3 2 1) ∧
      decode 0x403FFFFF#32 = .ok (.evtOnTimer 15 3 65535) ∧ decode 0x410F0000#32 = .ok (.evtRelease 15) := by
  decide

/-- The host's own reading of a table row: EVT_RELEASE has 32 bits in the table. -/
theorem test_table_word : decodeTableWord 32 0x41010000 = some (.evtRelease 1) ∧
    decodeTableWord 32 0x05000000 = none := by decide

/-! ## Ill-formed terms: each check refuses one (95_test_vectors.md V2; 00_scope.md R11 to R17) -/

theorem test_illformed_word_unused_bits :
    decode 0x00000001#32 = .error (.mustBeZero .f0) ∧ decode 0x10030001#32 = .error (.mustBeZero .fa) ∧
      decode 0x41100000#32 = .error (.mustBeZero .fs) ∧ decode 0x0801FFFF#32 = .error (.mustBeZero .fb16) ∧
      decode 0x20000100#32 = .error (.mustBeZero .fb8) ∧ decode 0x140001FF#32 = .error (.mustBeZero .fab8) ∧
      decode 0x12030002#32 = .error (.mustBeZero .fab1) ∧ decode 0x40400000#32 = .error (.mustBeZero .fevt) := by
  decide
theorem test_illformed_word_reserved_op :
    decode 0x04000000#32 = .error (.reservedOp 0x04) ∧ decode 0x15000000#32 = .error (.reservedOp 0x15) ∧
      decode 0x42000000#32 = .error (.reservedOp 0x42) ∧ decode 0xFF000000#32 = .error (.reservedOp 0xFF) := by
  decide
theorem test_illformed_config_clock : ¬ Config.Valid { Config.profileT1 with fClk := 1500000 } := by
  intro h; exact absurd h.1 (by decide)
theorem test_illformed_config_timers : ¬ Config.Valid { Config.profileT1 with psSet := [2, 1] } := by
  intro h; exact absurd h.2.1 (by decide)
theorem test_illformed_config_dwells : ¬ Config.Valid { Config.profileT1 with dlyUsOvh := 4294967296 } := by
  intro h; exact absurd h.2.2.1 (by decide)
theorem test_illformed_config_onewire : ¬ Config.Valid { Config.profileT1 with timeD := 11 } := by
  intro h; exact absurd h.2.2.2.1 (by decide)
theorem test_illformed_config_rf : ¬ Config.Valid { Config.profileT1 with maxCount := 2 } := by
  intro h; exact absurd h.2.2.2.2.1 (by decide)
theorem test_illformed_config_pins : ¬ Config.Valid { Config.profileT1 with npins := 33 } := by
  intro h; exact absurd h.2.2.2.2.2 (by decide)

/-! ## Small states -/

/-- Right after reset with other parameters, a command just accepted. -/
def acc (c : Config) (i : Instr) : State := acceptCommand (encode i) (State.resetWith c)

/-- The state after reset with a command just accepted, parameters T1. -/
def acc1 (i : Instr) : State := acc Config.profileT1 i

/-- A command at the end of phase `k`. -/
def atEnd (c : Config) (i : Instr) (k : Nat) : State :=
  (acc c i).setSeq { (acc c i).seq with fresh := false, phase := BitVec.ofNat 32 k }

/-- The next state of an outcome. -/
def after : Out → Option State
  | .next s => some s
  | .fault _ => none
  | .refused _ => none

/-- The outcome is a next state. -/
def isNext (o : Out) : Bool := (after o).isSome

/-- What is read of an outcome's next state. -/
def seen {α : Type} (o : Out) (f : State → α) : Option α := (after o).map f

/-- A quiet cycle with given pin levels. -/
def quiet (pins : BitVec 32) : Input := ⟨false, .idle, pins⟩

/-! ## One step of each command -/

/-- R130. -/
theorem test_nop : seen (exec .nop ((acc1 .nop).setResult 7)) (fun t => (t.result, t.seq.busy)) =
    some (0, false) := by decide
/-- R131, T1: `ps = 1, pr = 999`, and the timer runs (V13: TICKCFG = 0x00010001). -/
theorem test_millis_init :
    seen (exec .millisInit ((acc1 .millisInit).setTick 9)) (fun t =>
      (regRead t 6, regRead t 7, t.tick, t.intcon.ieTick)) = some (0x03E70000, 0x00010001, 0, true) := by decide
/-- R131, F_CLK = 1 GHz: no fit, `pr = 59463`, `ps = 8`. -/
theorem test_millis_init_truncates :
    seen (exec .millisInit (acc { Config.profileT1 with fClk := 1000000000 } .millisInit)) (fun t =>
      (t.tt.ps, t.tt.pr)) = some (8, 59463) := by decide
/-- R132. -/
theorem test_millis : seen (exec .millis ((acc1 .millis).setTick 0xFFFFFFFF)) (·.result) =
    some 0xFFFFFFFF := by decide
/-- R133: tick 2, tmr 499, pr 999 give 2499. -/
theorem test_micros : seen (exec .micros (((acc1 .micros).setTick 2).setTt ⟨true, 1, 0, 499, 999⟩)) (·.result) =
    some 2499 := by decide
/-- R133: the product wraps at 2^32 (4294968 * 1000 = 2^32 + 704). -/
theorem test_micros_wraps : seen (exec .micros ((acc1 .micros).setTick 4294968)) (·.result) = some 704 := by decide
/-- V11: 480 µs, entered with 479 cycles of the dwell to go. -/
theorem test_delayus : seen (exec (.delayUs 480) (acc1 (.delayUs 480))) (fun t => (t.seq.busy, t.seq.cnt)) =
    some (true, 479) := by decide
/-- V11: `Delayus(0)` is immediate. -/
theorem test_delayus_zero : seen (exec (.delayUs 0) (acc1 (.delayUs 0))) (·.seq.busy) = some false := by decide
/-- V12: with no overhead the first phase falls through to the wait of 1000 µs. -/
theorem test_delayms : seen (exec (.delayMs 3) (acc1 (.delayMs 3))) (fun t => (t.seq.phase, t.seq.cnt)) =
    some (1, 999) := by decide
theorem test_delayms_zero : seen (exec (.delayMs 0) (acc1 (.delayMs 0))) (·.seq.busy) = some false := by decide
/-- V30: `TimeG = 0`, so the first cycle drives pin 3 low. -/
theorem test_ow_reset : seen (exec (.owReset 3) (acc1 (.owReset 3))) (fun t => (t.pinDir, t.pinLat, t.seq.cnt)) =
    some (8, 0, 479) := by decide
/-- V37: pin 32 with `NPINS = 32`. -/
theorem test_ow_reset_refused : seen (exec (.owReset 32) (acc1 (.owReset 32))) (fun t =>
    (t.result, t.status.argErr, t.pinDir)) = some (0xFFFFFFFF, true, 0) := by decide
/-- V33: the sample is the level of the pin in the cycle of phase 2. -/
theorem test_ow_readbit : seen (exec (.owReadBit 3) ((atEnd Config.profileT1 (.owReadBit 3) 1).setPinIn 8)) (fun t =>
    (t.seq.acc, t.seq.cnt)) = some (1, 54) := by decide
/-- V32: a 0-slot is low for 60 cycles, a 1-slot for 6. -/
theorem test_ow_writebit_low : seen (exec (.owWriteBit 3 0) (acc1 (.owWriteBit 3 0))) (·.seq.cnt) = some 59 ∧
    seen (exec (.owWriteBit 3 1) (acc1 (.owWriteBit 3 1))) (·.seq.cnt) = some 5 := by decide
theorem test_ow_writebit_release :
    seen (exec (.owWriteBit 3 1) ((atEnd Config.profileT1 (.owWriteBit 3 1) 0).setPinDir 8)) (fun t =>
      (t.pinDir, t.seq.cnt)) = some (0, 63) := by decide
/-- V34: bit 0 of 0xB0 is 0, so the first slot is a 0-slot. -/
theorem test_ow_writebyte_first : seen (exec (.owWriteByte 3 0xB0) (acc1 (.owWriteByte 3 0xB0))) (fun t =>
    (t.seq.mask, t.seq.cnt, t.pinDir)) = some (1, 59, 8) := by decide
/-- V34: after slot 3 (mask 0x08) comes slot 4 with mask 0x10, a 1-slot. -/
theorem test_ow_writebyte_next :
    seen (exec (.owWriteByte 3 0xB0)
      ((atEnd Config.profileT1 (.owWriteByte 3 0xB0) 10).setSeq
        { (atEnd Config.profileT1 (.owWriteByte 3 0xB0) 10).seq with mask := 8 })) (fun t =>
      (t.seq.mask, t.seq.cnt, t.seq.phase)) = some (0x10, 5, 12) := by decide
/-- V35: a level of 1 at the sample of the last slot sets bit 7. -/
theorem test_ow_readbyte_sample :
    seen (exec (.owReadByte 3)
      (((atEnd Config.profileT1 (.owReadByte 3) 29).setSeq
        { (atEnd Config.profileT1 (.owReadByte 3) 29).seq with mask := 0x80, acc := 0x30 }).setPinIn 8))
      (·.seq.acc) = some 0xB0 := by decide
theorem test_ow_readbyte_result :
    seen (exec (.owReadByte 3)
      ((atEnd Config.profileT1 (.owReadByte 3) 30).setSeq
        { (atEnd Config.profileT1 (.owReadByte 3) 30).seq with acc := 0xB0 })) (fun t => (t.result, t.seq.busy)) =
      some (0xB0, false) := by decide
/-- R191: 0xA5 gives 0x6699. -/
theorem test_man_encode : seen (exec (.manEncode 0xA5) (acc1 (.manEncode 0xA5))) (·.result) = some 0x6699 := by decide
/-- R195: 0x66, 0x99 give 0xA5; an illegal high byte gives 0xF0 with the low nibble, and MAN_ERR_HI. -/
theorem test_man_decode : seen (exec (.manDecode 0x66 0x99) (acc1 (.manDecode 0x66 0x99))) (·.result) =
    some 0xA5 := by decide
theorem test_man_decode_error : seen (exec (.manDecode 0x00 0x99) (acc1 (.manDecode 0x00 0x99))) (fun t =>
    (t.result, regRead t 3)) = some (0xF5, 0x20) := by decide
/-- R193: 0x99 gives 5; the sentinel gives itself and sets MAN_SENT_LO only. -/
theorem test_man_nibbler : seen (exec (.manNibbler 0x99) (acc1 (.manNibbler 0x99))) (·.result) = some 5 := by decide
theorem test_man_nibbler_sentinel : seen (exec (.manNibbler 0xF0) (acc1 (.manNibbler 0xF0))) (fun t =>
    (t.result, regRead t 3)) = some (0xF0, 0x40) := by decide
/-- R211: 500 baud at 1 MHz gives `ps = 1, pr = 999`, mode IDLE. -/
theorem test_rf_init : seen (exec (.rfInit 5 500) (acc1 (.rfInit 5 500))) (fun t =>
    (t.rt.ps, t.rt.pr, regRead t 8, t.rf.pin)) = some (1, 999, 4, 5) := by decide
/-- V16: 1 baud at 12 MHz does not fit and is refused. -/
theorem test_rf_init_refused : seen (exec (.rfInit 5 1) (acc Config.profileT12 (.rfInit 5 1))) (fun t =>
    (t.result, t.status.argErr, t.rt.on)) = some (0xFFFFFFFF, true, false) := by decide
/-- R213: RFSTAT = 0x02000000. -/
theorem test_rf_begin : seen (exec .rfBegin (acc1 .rfBegin)) (regRead · 8) = some 0x02000000 := by decide
/-- R214: RFSTAT = 0x08000020; a count of 0 is refused. -/
theorem test_rf_begin_bytes : seen (exec (.rfBeginBytes 8) (acc1 (.rfBeginBytes 8))) (regRead · 8) =
    some 0x08000020 := by decide
theorem test_rf_begin_bytes_refused : seen (exec (.rfBeginBytes 0) (acc1 (.rfBeginBytes 0))) (fun t =>
    (t.result, regRead t 8)) = some (0xFFFFFFFF, 4) := by decide
/-- R215. -/
theorem test_rf_complete : seen (exec .rfComplete (setMode .data (acc1 .rfComplete))) (·.result) = some 0 ∧
    seen (exec .rfComplete (setMode .msg (acc1 .rfComplete))) (·.result) = some 1 := by decide
/-- R216: 0x12 then 0x34 give 0x1234. -/
theorem test_rf_getmsg : seen (exec .rfGetMsg ((acc1 .rfGetMsg).setBuf [(0, 0x12), (1, 0x34)])) (·.result) =
    some 0x1234 := by decide
/-- R217. -/
theorem test_rf_stop : seen (exec .rfStop (setMode .msg (acc1 .rfStop))) (regRead · 8) = some 4 := by decide
/-- R218: the byte of the index, and the refusal of an index outside BUF. -/
theorem test_rf_rdbuf : seen (exec (.rfRdBuf 1) ((acc1 (.rfRdBuf 1)).setBuf [(0, 0x05), (1, 0xAB)])) (·.result) =
    some 0xAB := by decide
theorem test_rf_rdbuf_refused : seen (exec (.rfRdBuf 255) (acc1 (.rfRdBuf 255))) (·.result) =
    some 0xFFFFFFFF := by decide
/-- V51: EVTCFG[1] = 0x00010003, EVTLIM[1] = 500, EVTCB[1] = 0xBEEF, INTCON bit 9. -/
theorem test_evt_ontimer :
    seen (exec (.evtOnTimer 1 1 500) ((acc1 (.evtOnTimer 1 1 500)).setCbarg 0xBEEF)) (fun t =>
      (t.result, regRead t 25, regRead t 27, regRead t 28, regRead t 4)) =
      some (0, 0x00010003, 500, 0xBEEF, 0x200) := by decide
/-- V50: a second bind returns 1 and keeps the binding. -/
theorem test_evt_ontimer_used :
    seen (exec (.evtOnTimer 1 1 1)
      (setSlot 1 ⟨true, 0xBEEF, 2, 3, ⟨true, 1, 0, 5, 999⟩⟩ ((acc1 (.evtOnTimer 1 1 1)).setCbarg 0xDEAD))) (fun t =>
      (t.result, regRead t 28, regRead t 27, regRead t 26)) = some (1, 0xBEEF, 3, 2) := by decide
/-- R265: after a release EVTCFG[1] = 0x00010000. -/
theorem test_evt_release :
    seen (exec (.evtRelease 1) (setSlot 1 ⟨true, 0xBEEF, 2, 3, ⟨true, 1, 0, 5, 999⟩⟩ (acc1 (.evtRelease 1)))) (fun t =>
      (t.result, regRead t 25, regRead t 26)) = some (0, 0x00010000, 0) := by decide
/-- V58: slot 5 with `N_EVT = 4`. -/
theorem test_evt_release_refused : seen (exec (.evtRelease 5) (acc1 (.evtRelease 5))) (fun t =>
    (t.result, t.status.argErr)) = some (2, true) := by decide

/-! ## Witnesses: for every statement with hypotheses, a state and operands that meet them -/

/-- The parameters of T1 with overheads, a gap and a wait before the reset pulse, so that no dwell is 0. -/
def slow : Config :=
  { Config.profileT1 with dlyUsOvh := 1, dlyMsOvh := 2, owGapCyc := 3, timeG := 1 }

/-- A receiver in a mode, its pin 0 at the level `x` in this cycle and the one before, `n` ticks counted. -/
def receiving (m : RfMode) (x last : Bool) (n : Half) (sync : Byte) : State :=
  let s := State.reset
  let lv : BitVec 32 := if x then 1 else 0
  ((s.setPinIn lv).setPinQ lv).setRf { s.rf with
    mode := m, sample := last, lastSample := last, count := n, syncCount := sync, capBytes := 2, maxBytes := 2 }

/-- Two sources ready: TICK and EVT[3]. -/
def twoReady : State :=
  State.reset.setIntcon ⟨true, true, false, 8, true, false, 8⟩

/-- An EVT slot whose next tick reaches its limit, ready to be served. -/
def callbackDue : State :=
  (setSlot 3 ⟨true, 0xA5, 4, 5, ⟨true, 1, 0, 0, 9⟩⟩
    (State.reset.setIntcon ⟨true, false, false, 8, false, false, 8⟩)).setInputs [quiet 0]

theorem witness_DecodeEncodeAgree : decode 0x41010000#32 = .ok (.evtRelease 1) := by decide
theorem witness_IllegalWord : State.reset.seq.busy = false ∧ legalWord 0x12030002#32 = false := by decide
theorem witness_AcceptedCommand :
    let s := State.reset.setInputs [⟨false, .write 0 0x080001E0, 0⟩]
    (nextInput s).rst = false ∧ (nextInput s).host = .write 0 0x080001E0#32 ∧ s.seq.busy = false ∧
      legalWord 0x080001E0#32 = true ∧ isNext (step s) = true := by decide
theorem witness_WriteWhileBusy : (acc1 (.delayUs 100)).seq.busy = true := by decide
theorem witness_IntconRegister : State.reset.cfg.nEvt ≤ 8 := by decide
/-- One index of each kind, at both ends of each range: 13, 15; 21 (slot 0), 48 (slot 4 of 4), 79; 83, 127. -/
theorem witness_ReservedOffsets :
    (∀ w ∈ [13, 15], 13 ≤ w ∧ w ≤ 15) ∧
      (∀ w ∈ [21, 48, 79], 16 ≤ w ∧ w < 80 ∧ (State.reset.cfg.nEvt ≤ (w - 16) / 8 ∨ 5 ≤ (w - 16) % 8)) ∧
      ∀ w ∈ [83, 127], 83 ≤ w := by decide
/-- The last slot, the last pin and a read-only register. -/
theorem witness_RegisterViews : 3 < State.reset.cfg.nEvt ∧ 3 < 8 ∧ 31 < 32 ∧ (2 : BitVec 7) ≠ 0 ∧
    (2 : BitVec 7) ≠ 1 ∧ (2 : BitVec 7) ≠ 3 ∧ (2 : BitVec 7) ≠ 4 := by decide
theorem witness_ReadsHaveNoSideEffect : (nextInput (State.reset.setInputs [quiet 0])).rst = false := by decide
theorem witness_ResetCycle : (nextInput (State.reset.setInputs [⟨true, .write 0 0, 0⟩])).rst = true := by decide
theorem witness_QuiescentAfterReset :
    let s : State := { State.resetWith Config.profileT1 with cycle := 5, inputs := [⟨false, .read 3, 7⟩] }
    (nextInput s).rst = false ∧ ∀ widx v, (nextInput s).host ≠ .write widx v :=
  ⟨rfl, fun _ _ h => HostAccess.noConfusion h⟩
/-- SEQ idle, SEQ held, SEQ running with nothing enabled; the INT step of the first clause faults where BUF is too
small for the receiver's byte. -/
theorem witness_StepRunsTheCommand :
    let idle := State.reset.setInputs [quiet 0]
    let held := (acc1 (.delayUs 9)).setIsrBusy 2 |>.setInputs [quiet 0]
    let run := (acc1 (.delayUs 9)).setInputs [quiet 0]
    let bad := (((receiving .data true false 0 0).setRf { (receiving .data true false 0 0).rf with
      numMB := 15, curByte := 7, capBytes := 9, maxBytes := 9 }).setIntcon
        ⟨true, false, true, 0, false, true, 0⟩).setInputs [quiet 1]
    let tiny := { bad with cfg := { bad.cfg with rfBufCap := 2 } }
    ((nextInput idle).rst = false ∧ (beforeSeq idle).isOk = true ∧ idle.seq.busy = false) ∧
      ((nextInput held).rst = false ∧ (seen (step held) (·.isrBusy)) = some 1) ∧
      ((nextInput run).rst = false ∧ (nextInput run).host = .idle ∧ run.isrBusy = 0 ∧ run.intcon.gie = false ∧
        run.seq.busy = true ∧ decode run.seq.cmd = .ok (.delayUs 9)) ∧
      ((nextInput tiny).rst = false ∧ (beforeSeq tiny).isOk = false) ∧
      (nextInput (idle.setInputs [⟨false, .read 3, 0⟩])).host = .read 3 ∧
      (nextInput (idle.setInputs [⟨false, .write 127 1, 0⟩])).host = .write 127 1 := by decide
/-- R26: of three pins presented at 1, the one driven low and the one above `NPINS` read 0; and the next cycle's
`pin_q` has the levels of this one. -/
theorem test_pad_levels :
    let s := ((acc { Config.profileT1 with npins := 31 } .nop).setPinDir 1).setInputs [quiet 0x80000003, quiet 0]
    seen (step s) (fun t => (t.pinIn, t.pinQ)) = some (2, 2) := by decide
/-- R72, R330: the host's write acts in the cycle that makes it. -/
theorem test_host_write :
    seen (step (State.reset.setInputs [⟨false, .write 1 0xBEEF, 0⟩])) (·.cbarg) = some 0xBEEF := by decide
theorem witness_PlacedWordRuns : decode 0x200000A5#32 = .ok (.manEncode 0xA5) := by decide
/-- The widest timer with the longest period, and the narrowest with the shortest. -/
theorem witness_TimerPeriod : (16 ≤ 16 ∧ 1 ≤ 65535 ∧ 65535 < 65536 ∧ 65535 < 2 ^ 16) ∧
    (1 ≤ 16 ∧ 1 ≤ 1 ∧ 1 < 65536 ∧ 0 < 2 ^ 1) := by decide
theorem witness_Priority :
    twoReady.isrBusy = 0 ∧ IntSource.tick ∈ sources twoReady.cfg ∧ isReady twoReady .tick = true ∧
      isReady twoReady (.evt 3) = true ∧
      (∀ x ∈ sources twoReady.cfg, isReady twoReady x = true → sourceNumber .tick ≤ sourceNumber x) ∧
      (intDispatch twoReady).isOk = true := by decide
theorem witness_IntStep :
    (twoReady.setIsrBusy 3).isrBusy ≠ 0 ∧ readySource State.reset = none ∧
      (twoReady.isrBusy = 0 ∧ readySource twoReady = some .tick ∧
        (handlerOf .tick (clearPending .tick twoReady)).isOk = true) ∧
      0 < (twoReady.setIsrBusy 1).isrBusy ∧ (acc1 .nop).isrBusy = 0 ∧ decode (acc1 .nop).seq.cmd = .ok .nop := by
  decide
/-- `C` that fits at the first divisor, at the last, and nowhere (V16). -/
theorem witness_TimerFit : Config.profileT1.TimersValid ∧ (timerFit Config.profileT1 1).fits = true ∧
    (timerFit Config.profileT1 524288).fits = true ∧ (timerFit Config.profileT1 1000000).fits = false ∧
    (timerFit Config.profileT1 1000000).ps ≤ 1000000 := by decide
/-- A unit that fits, seconds at 1 MHz, where `K = 2` is exact (V16), and an odd `C` too long for the timer, which
no `K` divides exactly. -/
theorem witness_EvtFit : Config.profileT1.TimersValid ∧ (timerFit Config.profileT1 1000).fits = true ∧
    (timerFit Config.profileT1 1000000).fits = false ∧ (timerFit Config.profileT1 1000000).ps ≤ 1000000 ∧
    (2 ≤ 2 ∧ 2 ≤ 1000000 / 8 ∧ 1000000 % (8 * 2) = 0) ∧
    (timerFit Config.profileT1 524521).fits = false ∧ 524521 % 2 = 1 := by decide
theorem witness_TickReads : Accepted (acc1 .nop) ∧ Accepted (acc1 .millis) ∧ Accepted (acc1 .micros) := by decide
theorem witness_MillisInit : Accepted (acc1 .millisInit) := by decide
theorem witness_DelayCycles :
    (let s := (atEnd slow (.delayUs 5) 0).setSeq { (atEnd slow (.delayUs 5) 0).seq with cnt := 1 };
      s.seq.busy = true ∧ s.seq.fresh = false ∧ s.seq.cnt ≠ 0) ∧
    (Accepted (acc1 (.delayUs 0)) ∧ cyc (acc1 (.delayUs 0)).cfg 0 = 0) ∧
    (Accepted (acc slow (.delayUs 65535)) ∧ 0 < cyc (acc slow (.delayUs 65535)).cfg 65535) ∧
    PhaseOver (atEnd slow (.delayUs 5) 0) 0 ∧ Accepted (acc1 (.delayMs 0)) ∧
    (Accepted (acc slow (.delayMs 1)) ∧ (1 : Half) ≠ 0 ∧ 0 < (acc slow (.delayMs 1)).cfg.dlyMsOvh) ∧
    (Accepted (acc1 (.delayMs 1)) ∧ (acc1 (.delayMs 1)).cfg.dlyMsOvh = 0 ∧ 0 < cyc (acc1 (.delayMs 1)).cfg 1000) ∧
    (2 < (3#16).toNat ∧ PhaseOver (atEnd slow (.delayMs 3) 4) (2 * 2) ∧ 0 < cyc slow 1000) ∧
    (1 + 1 < (3#16).toNat ∧ PhaseOver (atEnd slow (.delayMs 3) 3) (2 * 1 + 1) ∧ 0 < slow.dlyMsOvh) ∧
    (1 + 1 < (3#16).toNat ∧ PhaseOver (atEnd Config.profileT1 (.delayMs 3) 3) (2 * 1 + 1) ∧
      Config.profileT1.dlyMsOvh = 0 ∧ 0 < cyc Config.profileT1 1000) ∧
    (2 + 1 = (3#16).toNat ∧ PhaseOver (atEnd slow (.delayMs 3) 5) (2 * 2 + 1)) := by decide
theorem witness_DelayUsDuration : Accepted (acc slow (.delayUs 65535)) ∧ slow.DwellsFit ∧
    0 < 65536 ∧ 65536 ≤ cyc slow 65535 := by decide
theorem witness_DelayMsDuration : Accepted (acc slow (.delayMs 2)) ∧ slow.DwellsFit ∧
    0 < 2006 ∧ 2006 ≤ 2 * (slow.dlyMsOvh + cyc slow 1000) := by decide
/-- Both commands, at the last cycle of the bound for `DELAYUS`, with an interrupt served meanwhile. -/
theorem witness_DelaysAreLowerBounds :
    let s := ((acc slow (.delayUs 3)).setIntcon ⟨true, true, false, 0, true, false, 0⟩).setInputs
      [⟨false, .write 0 0, 0⟩, quiet 1]
    let u := (acc slow (.delayMs 3)).setInputs [quiet 0]
    (Accepted s ∧ s.cfg.ClockValid ∧ s.cfg.DwellsFit ∧ (∀ x ∈ s.inputs.take 3, x.rst = false) ∧
      isNext (stepTimes 3 s) = true ∧ decode s.seq.cmd = .ok (.delayUs 3) ∧ 3 ≤ 3 * cycPerUs s.cfg) ∧
    (Accepted u ∧ u.cfg.ClockValid ∧ u.cfg.DwellsFit ∧ (∀ x ∈ u.inputs.take 1, x.rst = false) ∧
      isNext (stepTimes 1 u) = true ∧ decode u.seq.cmd = .ok (.delayMs 3) ∧
      1 ≤ 3 * (1000 * cycPerUs u.cfg)) := by decide
theorem witness_OwResetCycles :
    pinUsable slow 31 = true ∧ (Accepted (acc slow (.owReset 31)) ∧ 0 < cyc slow slow.timeG) ∧
      (Accepted (acc1 (.owReset 31)) ∧ cyc Config.profileT1 Config.profileT1.timeG = 0) ∧
      (PhaseOver (atEnd slow (.owReset 31) 0) 0 ∧ 0 < cyc slow slow.timeH) ∧
      (PhaseOver (atEnd slow (.owReset 31) 1) 1 ∧ 0 < cyc slow slow.timeI) ∧
      (PhaseOver (atEnd slow (.owReset 31) 2) 2 ∧ 0 < cyc slow slow.timeJ) ∧
      PhaseOver (atEnd slow (.owReset 31) 3) 3 := by decide
theorem witness_OwBitCycles :
    pinUsable slow 0 = true ∧ Accepted (acc slow (.owWriteBit 0 1)) ∧ Accepted (acc slow (.owWriteBit 0 0)) ∧
      (0 < cyc slow slow.timeA ∧ 0 < cyc slow slow.timeB ∧ 0 < cyc slow slow.timeC ∧ 0 < cyc slow slow.timeD ∧
        0 < cyc slow slow.timeE ∧ 0 < cyc slow slow.timeF) ∧
      PhaseOver (atEnd slow (.owWriteBit 0 1) 0) 0 ∧ PhaseOver (atEnd slow (.owWriteBit 0 1) 1) 1 ∧
      Accepted (acc slow (.owReadBit 0)) ∧ PhaseOver (atEnd slow (.owReadBit 0) 0) 0 ∧
      PhaseOver (atEnd slow (.owReadBit 0) 1) 1 ∧ PhaseOver (atEnd slow (.owReadBit 0) 2) 2 := by decide
theorem witness_OwWriteByteCycles :
    pinUsable slow 3 = true ∧ Accepted (acc slow (.owWriteByte 3 0xB0)) ∧
      PhaseOver (atEnd slow (.owWriteByte 3 0xB0) 0) (3 * 0) ∧ PhaseOver (atEnd slow (.owWriteByte 3 0xB0) 21) (3 * 7) ∧
      (PhaseOver (atEnd slow (.owWriteByte 3 0xB0) 19) (3 * 6 + 1) ∧ 0 < slow.owGapCyc) ∧
      (PhaseOver (atEnd Config.profileT1 (.owWriteByte 3 0xB0) 19) (3 * 6 + 1) ∧ Config.profileT1.owGapCyc = 0) ∧
      PhaseOver (atEnd slow (.owWriteByte 3 0xB0) 20) (3 * 6 + 2) ∧
      PhaseOver (atEnd slow (.owWriteByte 3 0xB0) 22) 22 ∧
      (0 < cyc slow slow.timeA ∧ 0 < cyc slow slow.timeB ∧ 0 < cyc slow slow.timeC ∧ 0 < cyc slow slow.timeD) := by
  decide
theorem witness_OwReadByteCycles :
    pinUsable slow 3 = true ∧ Accepted (acc slow (.owReadByte 3)) ∧
      PhaseOver (atEnd slow (.owReadByte 3) 28) (4 * 7) ∧ PhaseOver (atEnd slow (.owReadByte 3) 29) (4 * 7 + 1) ∧
      (PhaseOver (atEnd slow (.owReadByte 3) 26) (4 * 6 + 2) ∧ 0 < slow.owGapCyc) ∧
      (PhaseOver (atEnd Config.profileT1 (.owReadByte 3) 26) (4 * 6 + 2) ∧ Config.profileT1.owGapCyc = 0) ∧
      PhaseOver (atEnd slow (.owReadByte 3) 27) (4 * 6 + 3) ∧ PhaseOver (atEnd slow (.owReadByte 3) 30) 30 ∧
      (0 < cyc slow slow.timeA ∧ 0 < cyc slow slow.timeE ∧ 0 < cyc slow slow.timeF) := by decide
/-- Every window of the trace has a cycle in it. -/
theorem witness_OwEventTrace :
    Accepted (acc slow (.owReset 3)) ∧ Accepted (acc slow (.owWriteBit 3 1)) ∧ Accepted (acc slow (.owReadBit 3)) ∧
      pinUsable slow 3 = true ∧ slow.DwellsFit ∧ slow.OneWireValid ∧
      (0 < cyc slow slow.timeA ∧ 0 < cyc slow slow.timeB ∧ 0 < cyc slow slow.timeC ∧ 0 < cyc slow slow.timeD) ∧
      (0 < cyc slow slow.timeE ∧ 0 < cyc slow slow.timeF ∧ 0 < cyc slow slow.timeG ∧ 0 < cyc slow slow.timeH) ∧
      (0 < cyc slow slow.timeI ∧ 0 < cyc slow slow.timeJ) := by decide
/-- The last slot of 0xB0 (a 1): its first and its last cycle. -/
theorem witness_OwWriteByteTrace :
    Accepted (acc slow (.owWriteByte 3 0xB0)) ∧ pinUsable slow 3 = true ∧ slow.DwellsFit ∧ slow.OneWireValid ∧
      writeSlotStart slow 0xB0 7 < writeSlotStart slow 0xB0 7 + 1 ∧ 1 ≤ writeLow slow ((0xB0 : Byte).getLsbD 7) ∧
      writeSlotStart slow 0xB0 7 + writeLow slow ((0xB0 : Byte).getLsbD 7) < writeSlotStart slow 0xB0 8 := by decide
theorem witness_OwReadByteTrace :
    Accepted (acc slow (.owReadByte 3)) ∧ pinUsable slow 3 = true ∧ slow.DwellsFit ∧ slow.OneWireValid ∧
      7 < 8 ∧ 0 < cyc slow slow.timeA ∧ 0 < cyc slow slow.timeE + cyc slow slow.timeF ∧
      6 < 7 ∧ readSlotStart slow 6 + cyc slow slow.timeA + cyc slow slow.timeE + cyc slow slow.timeF + 3 ≤
        readSlotStart slow (6 + 1) := by decide
/-- Each ground of refusal at its boundary. -/
theorem witness_RefusedOperands :
    Accepted (acc1 (.owReset 32)) ∧ Accepted (acc1 (.evtRelease 4)) ∧
      State.reset.cfg.npins ≤ (32 : Byte).toNat ∧ (0 : Half) = 0 ∧
      (timerFit Config.profileT12 (Config.profileT12.fClk / (2 * 8))).fits = false ∧
      State.reset.cfg.rfBufCap ≤ (255 : Byte).toNat ∧ slow.rfBufCap < 256 ∧
      State.reset.cfg.nEvt ≤ (4 : BitVec 4).toNat ∧
      ({ Config.profileT1 with rfBufCap := 254 } : Config).rfBufCap < (255 : Byte).toNat := by decide
theorem witness_ManEncode : Accepted (acc1 (.manEncode 0xA5)) ∧ 3 < 4 := by decide
/-- The command, and a byte with each illegal group in its last place. -/
theorem witness_ManNibbler : Accepted (acc1 (.manNibbler 0x99)) ∧
    ((0x19 : Byte) ≠ 0xF0 ∧ (0x19 : Byte).extractLsb' (2 * 3) 2 = 0b00#2) ∧
    ((0xD9 : Byte) ≠ 0xF0 ∧ (0xD9 : Byte).extractLsb' (2 * 3) 2 = 0b11#2) := by decide
theorem witness_ManDecode : Accepted (acc1 (.manDecode 0x66 0x99)) := by decide
theorem witness_ManRoundTrip : Accepted (acc1 (.manEncode 0xA5)) ∧ Accepted (acc1 (.manDecode 0x66 0x99)) ∧
    isNext (exec (.manEncode 0xA5) (acc1 (.manEncode 0xA5))) = true := by decide
theorem witness_RfInit : Accepted (acc1 (.rfInit 31 500)) ∧ (31 : Byte).toNat < State.reset.cfg.npins ∧
    (500 : Half) ≠ 0 ∧ State.reset.cfg.fClk / (2 * (500 : Half).toNat) ≠ 0 ∧
    (timerFit State.reset.cfg (State.reset.cfg.fClk / (2 * (500 : Half).toNat))).fits = true := by decide
theorem witness_RfControl : Accepted (acc1 .rfBegin) ∧ (255 : Byte) ≠ 0 ∧
    (255 : Byte).toNat ≤ State.reset.cfg.rfBufCap := by decide
theorem witness_RfReads :
    (let s := (acc1 .rfGetMsg).setBuf [(0, 0x12), (1, 0x34)];
      Accepted s ∧ 2 ≤ s.cfg.rfBufCap ∧ bufByte s 0 = some 0x12 ∧ bufByte s 1 = some 0x34) ∧
    (let s := acc1 .rfGetMsg;
      Accepted s ∧ bufByte s 0 = none) ∧
    (let s := (acc1 .rfGetMsg).setBuf [(0, 0x12)];
      Accepted s ∧ bufByte s 0 = some 0x12 ∧ bufByte s 1 = none) ∧
    (let s := (acc1 (.rfRdBuf 254)).setBuf [(254, 0x34)];
      Accepted s ∧ (254 : Byte).toNat < s.cfg.rfBufCap ∧ bufByte s 254 = some 0x34 ∧ bufByte s 253 = none) := by
  decide
theorem witness_RfDebounce :
    (receiving .msg true false 0 0).rf.mode = .msg ∧
      (let s := receiving .data true true 0xFFFF 0;
        s.rf.mode ≠ .msg ∧ s.rf.mode ≠ .idle ∧ acceptedSample s = s.rf.lastSample) := by decide
theorem witness_RfPre :
    (let s := receiving .pre true false 3 0;
      s.rf.mode = .pre ∧ acceptedSample s ≠ s.rf.lastSample ∧ acceptedSample s = true) ∧
    (let s := receiving .pre false true 3 0;
      s.rf.mode = .pre ∧ acceptedSample s ≠ s.rf.lastSample ∧ acceptedSample s = false) := by decide
/-- E1: a pulse of 1 tick is short, of 2 long, of 3 bad; 4 regular transitions are enough for the lock. -/
theorem witness_RfSync :
    (let s := receiving .sync true false 2 4;
      s.rf.mode = .sync ∧ acceptedSample s ≠ s.rf.lastSample ∧ ¬ IsShort s.cfg (tickCount s) ∧
        ¬ IsLong s.cfg (tickCount s)) ∧
    (let s := receiving .sync true false 0 16;
      acceptedSample s ≠ s.rf.lastSample ∧ IsShort s.cfg (tickCount s)) ∧
    (let s := receiving .sync true false 1 4;
      acceptedSample s ≠ s.rf.lastSample ∧ ¬ IsShort s.cfg (tickCount s) ∧ IsLong s.cfg (tickCount s) ∧
        s.rf.lastSample = false ∧ 2 * s.cfg.syncPulseMin ≤ s.rf.syncCount.toNat) ∧
    (let s := receiving .sync true false 1 3;
      ¬ IsShort s.cfg (tickCount s) ∧ IsLong s.cfg (tickCount s) ∧
        s.rf.syncCount.toNat < 2 * s.cfg.syncPulseMin) := by decide
theorem witness_RfData :
    (let s := receiving .data true false 2 0;
      s.rf.mode = .data ∧ acceptedSample s ≠ s.rf.lastSample ∧ ¬ IsShort s.cfg (tickCount s) ∧
        ¬ IsLong s.cfg (tickCount s)) ∧
    (let s := receiving .data true false 0 0;
      acceptedSample s ≠ s.rf.lastSample ∧ IsShort s.cfg (tickCount s) ∧ s.rf.curByte ≠ s.rf.maxBytes ∧
        (addManBit true s).isOk = true) ∧
    (let s := (receiving .data true false 0 0).setRf { (receiving .data true false 0 0).rf with curByte := 2 };
      IsShort s.cfg (tickCount s) ∧ acceptedSample s = true ∧ s.rf.curByte = s.rf.maxBytes) ∧
    (let s := receiving .data true false 1 0;
      acceptedSample s ≠ s.rf.lastSample ∧ ¬ IsShort s.cfg (tickCount s) ∧ IsLong s.cfg (tickCount s) ∧
        (addManBit false s).isOk = true) := by decide
theorem witness_RfBitAssembler :
    State.reset.rf.numMB ≠ 15 ∧
      (let s := (receiving .data true false 0 0).setRf { (receiving .data true false 0 0).rf with numMB := 15, curByte := 1 };
        s.rf.numMB = 15 ∧ s.rf.capBytes.toNat ≤ s.cfg.rfBufCap ∧ s.rf.curByte.toNat < s.rf.capBytes.toNat) ∧
      (let s := (receiving .data true false 0 0).setRf { (receiving .data true false 0 0).rf with numMB := 15, curByte := 2 };
        s.rf.numMB = 15 ∧ s.rf.capBytes.toNat ≤ s.rf.curByte.toNat) := by decide
theorem witness_RfModeTable :
    (rfHandler (receiving .sync true false 1 4)).isOk = true ∧ isNext (exec .rfStop (acc1 .rfStop)) = true ∧
      isNext (step (State.reset.setInputs [quiet 0])) = true := by decide
/-- The last slot, free, and bound. -/
theorem witness_EvtOnTimer :
    (let s := acc1 (.evtOnTimer 3 2 1);
      Accepted s ∧ (3 : BitVec 4).toNat < s.cfg.nEvt ∧ (2 : BitVec 2) ≠ 3 ∧ (slotAt s 3).used = false) ∧
    (let s := setSlot 3 ⟨true, 0xBEEF, 2, 3, ⟨true, 1, 0, 5, 999⟩⟩ (acc1 (.evtOnTimer 3 2 1));
      Accepted s ∧ (slotAt s 3).used = true) := by decide
theorem witness_EvtRelease : Accepted (acc1 (.evtRelease 3)) ∧ (3 : BitVec 4).toNat < State.reset.cfg.nEvt := by
  decide
/-- A count one below the limit, and two below. -/
theorem witness_EvtHandler :
    (slotAt callbackDue 3).limit.toNat ≤ ((slotAt callbackDue 3).count.toNat + 1) % 2 ^ 32 ∧
      (let s := setSlot 3 ⟨true, 0xA5, 3, 5, ⟨true, 1, 0, 0, 9⟩⟩ callbackDue;
        ((slotAt s 3).count.toNat + 1) % 2 ^ 32 < (slotAt s 3).limit.toNat) := by decide
theorem witness_EvtDownSampling :
    let s := setSlot 3 ⟨true, 0xA5, 0, 5, ⟨true, 1, 0, 0, 9⟩⟩ State.reset
    3 < s.evt.length ∧ (slotAt s 3).count = 0 := by decide
/-- A cycle with a callback, and one without. -/
theorem witness_CallbackPorts :
    (nextInput callbackDue).rst = false ∧ isNext (step callbackDue) = true ∧
      seen (step callbackDue) (·.callback) = some ⟨true, 3, 0xA5⟩ ∧
      seen (step (State.reset.setInputs [quiet 0])) (·.callback) = some ⟨false, 0, 0⟩ := by decide
/-- `NOP` is none of the commands the clauses leave out, at the last slot and the last pin. -/
theorem witness_CommandsFrame : isNext (exec .nop (acc1 .nop)) = true ∧ Instr.nop ≠ .millisInit ∧
    (∀ pin baud, Instr.nop ≠ .rfInit pin baud) ∧ (∀ slot u d, Instr.nop = .evtOnTimer slot u d → slot.toNat ≠ 7) ∧
    (∀ slot, Instr.nop = .evtRelease slot → slot.toNat ≠ 7) ∧ 31 < 32 ∧
    Instr.nop ≠ .owReset (BitVec.ofNat 8 31) ∧ (∀ c, Instr.nop ≠ .manNibbler c) :=
  ⟨by decide, by decide, fun _ _ h => Instr.noConfusion h, fun _ _ _ h => Instr.noConfusion h,
    fun _ h => Instr.noConfusion h, by decide, by decide, fun _ h => Instr.noConfusion h⟩
theorem witness_TickWriters :
    (let s := twoReady.setInputs [quiet 0];
      (nextInput s).rst = false ∧ isNext (step s) = true ∧ seen (step s) (·.tick) = some 1) ∧
    (let s := ((acc1 .millisInit).setTick 5).setInputs [quiet 0];
      seen (step s) (·.tick) = some 0) := by decide
/-- Reset meets the invariant, and so every statement that assumes it speaks of some state. -/
theorem witness_Inv : Inv State.reset :=
  ⟨by decide, by decide, by decide, by decide, by decide, by decide⟩
theorem witness_InvAtReset : Config.profileT1.Valid := by decide
theorem witness_InvKept : Inv State.reset ∧ isNext (step State.reset) = true := ⟨witness_Inv, by decide⟩
theorem witness_BusInvKept : Inv State.reset ∧ BusInv State.reset ∧ isNext (step State.reset) = true ∧
    seen (step State.reset) (·.seq.busy) = some false := ⟨witness_Inv, by decide, by decide, by decide⟩
/-- A state with the invariant in which the sixteenth bit arrives, so that a byte of BUF changes. -/
def storing : State :=
  let s := (receiving .data true false 0 0).setRf { (receiving .data true false 0 0).rf with numMB := 15 }
  ((s.setRt ⟨true, 1, 0, 0, 9⟩).setIntcon ⟨true, false, true, 0, false, true, 0⟩).setInputs [quiet 1]
theorem witness_BufWriters : Inv storing ∧ (nextInput storing).rst = false ∧ isNext (step storing) = true ∧
    (bufByte storing 0 = none ∧ (seen (step storing) (bufByte · 0)).bind id ≠ none) :=
  ⟨⟨by decide, by decide, by decide, by decide, by decide, by decide⟩, by decide, by decide, by decide⟩
/-- The one fault there is: a byte nothing has stored is read. -/
theorem witness_StopsOnlyOnUnwrittenByte :
    Inv (acc1 .rfGetMsg) ∧ step (acc1 .rfGetMsg) = .fault (.bufUnwritten 0) :=
  ⟨⟨by decide, by decide, by decide, by decide, by decide, by decide⟩, by rfl⟩

end Sys2Proof.Tests
end

section
/-! SUPPORT. Bits, timers and divisors: what one bit written into a word leaves, what a timer's cycle keeps, and
which divisor and period `TimerFit` and `EvtFit` choose (10_state.md R30, R31; 44_event_dispatcher.md R262). -/

namespace Sys2Proof.Machine

/-! ## Bits -/

/-- Writing one bit leaves the others, inside the word and above it. -/
theorem getLsbD_setBit_other {n : Nat} (v : BitVec n) {k j : Nat} (b : Bool) (h : j ≠ k) :
    (setBit v k b).getLsbD j = v.getLsbD j := by
  by_cases hj : j < n
  · rw [getLsbD_setBit v k j b hj, if_neg h]
  · simp [BitVec.getLsbD_of_ge _ _ (Nat.le_of_not_lt hj)]

/-- Clearing a bit of 0 leaves 0. -/
@[simp] theorem setBit_zero_false {n : Nat} (k : Nat) : setBit (0#n) k false = 0#n := by simp [setBit]

/-- A word has no bit outside a mask exactly where each of its bits is one of the mask's. -/
theorem and_not_eq_zero_iff {n : Nat} {v m : BitVec n} :
    v &&& ~~~m = 0 ↔ ∀ j, j < n → v.getLsbD j = true → m.getLsbD j = true := by
  constructor
  · intro h j hj hv
    have hbit : (v &&& ~~~m).getLsbD j = false := by simp [h]
    simpa [hj, hv] using hbit
  · intro h
    ext j hj
    have := h j hj
    simp only [BitVec.getLsbD_eq_getElem hj] at this
    cases hv : v[j] <;> simp_all

/-- Writing a bit of the mask keeps a word inside the mask. -/
theorem setBit_and_not_eq_zero {n : Nat} {v m : BitVec n} {k : Nat} (b : Bool) (hv : v &&& ~~~m = 0)
    (hk : k < n → m.getLsbD k = true) : setBit v k b &&& ~~~m = 0 := by
  rw [and_not_eq_zero_iff] at hv ⊢
  intro j hj hbit
  by_cases hjk : j = k
  · exact hjk ▸ hk (hjk ▸ hj)
  · exact hv j hj (by rwa [getLsbD_setBit_other v b hjk] at hbit)

/-- The mask of the EVT slots that exist, bit for bit (10_state.md R23). -/
theorem evtMask_getLsbD (c : Config) {k : Nat} (hk : k < 8) : (evtMask c).getLsbD k = decide (k < c.nEvt) := by
  rw [evtMask, BitVec.getLsbD_ofNat, Nat.testBit_two_pow_sub_one]
  simp [hk]

/-- Which EVT timers have their event in this cycle, bit for bit (10_state.md R30). -/
theorem getLsbD_evtFired (w : Nat) (l : List EvtSlot) (k : Nat) {j : Nat} (hj : j < 8) :
    (evtFired w l k).getLsbD j =
      (decide (k ≤ j ∧ j < k + l.length) && (timerStep w (l.getD (j - k) EvtSlot.reset).t).2) := by
  induction l generalizing k with
  | nil => simp [evtFired, show ¬ (k ≤ j ∧ j < k) by omega]
  | cons e rest ih =>
    rw [evtFired, getLsbD_setBit _ _ _ _ hj]
    by_cases hjk : j = k
    · simp [hjk]
    · rw [if_neg hjk, ih]
      by_cases hlt : k < j
      · obtain ⟨d, rfl⟩ : ∃ d, j = k + 1 + d := ⟨j - (k + 1), by omega⟩
        simp [show k + 1 + d - k = d + 1 by omega, show k + 1 + d < k + 1 + rest.length ↔
          k ≤ k + 1 + d ∧ k + 1 + d < k + (rest.length + 1) by omega]
      · rw [List.length_cons, decide_eq_false (show ¬ (k + 1 ≤ j ∧ j < k + 1 + rest.length) by omega),
          decide_eq_false (show ¬ (k ≤ j ∧ j < k + (rest.length + 1)) by omega), Bool.false_and, Bool.false_and]

/-! ## One timer (10_state.md R30) -/

/-- A timer's cycle starts and stops no timer. -/
@[simp] theorem timerStep_on (w : Nat) (t : Timer) : (timerStep w t).1.on = t.on := by
  rcases timerStep_cases w t with ⟨-, h⟩ | ⟨-, -, h⟩ | ⟨-, -, -, h⟩ | ⟨-, -, -, h⟩ <;> rw [h]

/-- A stopped timer does not move and has no event. -/
theorem timerStep_off (w : Nat) {t : Timer} (h : t.on = false) : timerStep w t = (t, false) := by
  simp [timerStep, h]

/-- The count of a timer below its period takes the next value without wrapping. -/
theorem toNat_next_count {w x p : Nat} (hw : w ≤ 16) (hp : p < 2 ^ w) (hx : x < p) :
    (BitVec.ofNat 16 ((x + 1) % 2 ^ w)).toNat = x + 1 := by
  have hle : 2 ^ w ≤ 2 ^ 16 := Nat.pow_le_pow_right (by decide) hw
  rw [BitVec.toNat_ofNat, Nat.mod_eq_of_lt (by omega : x + 1 < 2 ^ w), Nat.mod_eq_of_lt (by omega)]

/-- A timer's cycle keeps the count and the period inside the timer's width and the prescaler below its divisor. -/
theorem timerOk_timerStep {c : Config} {t : Timer} (hw : c.tmrW ≤ 16) (h : TimerOk c t) :
    TimerOk c (timerStep c.tmrW t).1 := by
  obtain ⟨hpr, htmr, hon⟩ := h
  rcases timerStep_cases c.tmrW t with ⟨-, h⟩ | ⟨ht, hpsc, h⟩ | ⟨ht, -, hne, h⟩ | ⟨ht, -, -, h⟩ <;> rw [h]
  · exact ⟨hpr, htmr, hon⟩
  · refine ⟨hpr, htmr, fun _ => ⟨(hon ht).1, ?_⟩⟩
    show (t.psc + 1).toNat < t.ps.toNat
    bv_omega
  · have hlt : t.tmr.toNat < t.pr.toNat := by
      have : t.tmr.toNat ≠ t.pr.toNat := fun he => hne (BitVec.eq_of_toNat_eq he)
      omega
    refine ⟨hpr, ?_, fun _ => ⟨(hon ht).1, Nat.lt_of_le_of_lt (Nat.zero_le _) (hon ht).2⟩⟩
    show (BitVec.ofNat 16 _).toNat ≤ t.pr.toNat
    rw [toNat_next_count hw hpr hlt]
    exact hlt
  · exact ⟨hpr, Nat.zero_le _, fun _ => ⟨(hon ht).1, Nat.lt_of_le_of_lt (Nat.zero_le _) (hon ht).2⟩⟩

/-- A timer after reset has the timers' invariant. -/
theorem timerOk_reset (c : Config) : TimerOk c Timer.reset :=
  ⟨Nat.two_pow_pos _, Nat.le_refl _, fun h => Bool.noConfusion h⟩

/-- A timer just started with a divisor of `PS_SET` and a period of the timer's width has the timers' invariant. -/
theorem timerOk_startTimer {c : Config} {ps pr : Nat} (hv : c.TimersValid) (hps : ps ∈ c.psSet)
    (hpr : pr < 2 ^ c.tmrW) : TimerOk c (startTimer ps pr) := by
  obtain ⟨-, hw, -, -, hbounds, -, -⟩ := hv
  obtain ⟨hlo, hhi⟩ := hbounds ps hps
  have hle : 2 ^ c.tmrW ≤ 2 ^ 16 := Nat.pow_le_pow_right (by decide) hw
  have hpsNat : (BitVec.ofNat 16 ps).toNat = ps := by
    rw [BitVec.toNat_ofNat, Nat.mod_eq_of_lt (by omega)]
  have hprNat : (BitVec.ofNat 16 pr).toNat = pr := by
    rw [BitVec.toNat_ofNat, Nat.mod_eq_of_lt (by omega)]
  refine ⟨?_, Nat.zero_le _, fun _ => ⟨?_, ?_⟩⟩
  · show (BitVec.ofNat 16 pr).toNat < _
    rwa [hprNat]
  · show (BitVec.ofNat 16 ps).toNat ∈ _
    rwa [hpsNat]
  · show 0 < (BitVec.ofNat 16 ps).toNat
    rw [hpsNat]
    exact hlo

/-! ## Divisors and periods (10_state.md R31, 44_event_dispatcher.md R262) -/

/-- The divisor `C` cycles can be counted with: the quotient is positive and fits the timer. -/
abbrev Fits (w C ps : Nat) : Prop := 1 ≤ C / ps ∧ C / ps ≤ 2 ^ w

/-- What `firstFit` finds is a divisor of the list that fits, and none before it does. -/
theorem firstFit_some {w C : Nat} {l : List Nat} {ps pr : Nat} (h : firstFit w C l = some (ps, pr)) :
    Fits w C ps ∧ pr = C / ps - 1 ∧ ∃ before after, l = before ++ ps :: after ∧ ∀ x ∈ before, ¬ Fits w C x := by
  induction l with
  | nil => cases h
  | cons x rest ih =>
    rw [firstFit] at h
    split at h
    · rename_i hx
      cases h
      exact ⟨hx, rfl, [], rest, rfl, by simp⟩
    · rename_i hx
      obtain ⟨hps, hpr, before, after, rfl, hnone⟩ := ih h
      exact ⟨hps, hpr, x :: before, after, rfl, List.forall_mem_cons.2 ⟨hx, hnone⟩⟩

/-- `firstFit` finds nothing exactly where no divisor of the list fits. -/
theorem firstFit_eq_none {w C : Nat} {l : List Nat} : firstFit w C l = none ↔ ∀ ps ∈ l, ¬ Fits w C ps := by
  induction l with
  | nil => simp [firstFit]
  | cons x rest ih =>
    rw [firstFit, List.forall_mem_cons, ← ih]
    split
    · simp_all
    · exact (and_iff_right ‹_›).symm

/-- The two answers of `TimerFit`: the first divisor that fits, or the last one with the period cut. -/
theorem timerFit_cases (c : Config) (C : Nat) :
    (∃ ps pr, firstFit c.tmrW C c.psSet = some (ps, pr) ∧ timerFit c C = ⟨true, ps, pr⟩) ∨
    (firstFit c.tmrW C c.psSet = none ∧
      timerFit c C = ⟨false, psMax c, truncatedPeriod c C (C / psMax c)⟩) := by
  unfold timerFit
  split
  · exact .inl ⟨_, _, ‹_›, rfl⟩
  · exact .inr ⟨‹_›, rfl⟩

/-- The last divisor is one of `PS_SET`. -/
theorem psMax_mem {c : Config} (h : c.psSet ≠ []) : psMax c ∈ c.psSet := by
  rw [psMax, List.getLastD_eq_getLast?, List.getLast?_eq_some_getLast h]
  exact List.getLast_mem h

/-- The last divisor is the largest of an ascending `PS_SET`. -/
theorem le_psMax {c : Config} (hsort : c.psSet.Pairwise (· < ·)) {ps : Nat} (hps : ps ∈ c.psSet) :
    ps ≤ psMax c := by
  have hne : c.psSet ≠ [] := List.ne_nil_of_mem hps
  rw [psMax, List.getLastD_eq_getLast?, List.getLast?_eq_some_getLast hne, Option.getD_some]
  rw [← List.dropLast_append_getLast hne] at hps hsort
  rcases List.mem_append.1 hps with hfront | hlast
  · exact Nat.le_of_lt ((List.pairwise_append.1 hsort).2.2 _ hfront _ (List.mem_singleton_self _))
  · exact Nat.le_of_eq (List.mem_singleton.1 hlast)

/-- A period that is cut fits the timer. -/
theorem truncatedPeriod_lt (c : Config) (C q : Nat) : truncatedPeriod c C q < 2 ^ c.tmrW := by
  unfold truncatedPeriod
  split <;> exact Nat.mod_lt _ (Nat.two_pow_pos _)

/-- `TimerFit` answers a divisor of `PS_SET` and a period that fits the timer. -/
theorem timerFit_inRange {c : Config} (hv : c.TimersValid) (C : Nat) :
    (timerFit c C).ps ∈ c.psSet ∧ (timerFit c C).pr < 2 ^ c.tmrW := by
  obtain ⟨-, -, hne, -, -, -, -⟩ := hv
  rcases timerFit_cases c C with ⟨ps, pr, hf, he⟩ | ⟨-, he⟩ <;> rw [he]
  · obtain ⟨⟨hlo, hhi⟩, rfl, before, after, hl, -⟩ := firstFit_some hf
    exact ⟨by simp [hl], by show C / ps - 1 < _; omega⟩
  · exact ⟨psMax_mem hne, truncatedPeriod_lt ..⟩

/-- `EvtFit` answers a divisor of `PS_SET` and a period that fits the timer. -/
theorem evtFit_inRange {c : Config} (hv : c.TimersValid) (C : Nat) :
    (evtFit c C).ps ∈ c.psSet ∧ (evtFit c C).pr < 2 ^ c.tmrW := by
  have hfit := timerFit_inRange hv C
  simp only [evtFit]
  split
  · exact hfit
  · exact ⟨psMax_mem hv.2.2.1, truncatedPeriod_lt ..⟩

end Sys2Proof.Machine
end

section
/-! SUPPORT. What the cycle of a command can do to the state: a sequence of a few kinds of writes, each of them the
command's own (30_encoding.md R105, R112; 10_state.md R25). -/

namespace Sys2Proof.Machine

/-- The pin operand of a one-wire command. -/
def owPin : Instr → Option Byte
  | .owReset pin | .owReadBit pin | .owWriteBit pin _ | .owReadByte pin | .owWriteByte pin _ => some pin
  | .nop | .millisInit | .millis | .micros | .delayUs _ | .delayMs _ | .manEncode _ | .manDecode _ _
  | .manNibbler _ | .rfInit _ _ | .rfBegin | .rfBeginBytes _ | .rfComplete | .rfGetMsg | .rfStop
  | .rfRdBuf _ | .evtOnTimer _ _ _ | .evtRelease _ => none

/-- One write that the cycle of a command can make, with the parameters `c`. -/
inductive CommandEffect (c : Config) : Instr → State → State → Prop
  /-- SEQ moves within its command, and RESULT may be written. -/
  | progress (i u q r) (hcmd : q.cmd = u.seq.cmd) : CommandEffect c i u ((u.setSeq q).setResult r)
  /-- A refused operand (30_encoding.md R112). -/
  | refused (i u r) : CommandEffect c i u ((raiseArgErr u).setResult r)
  | millisInit (u) : CommandEffect c .millisInit u (millisInitAction u)
  | driveLow (i pin u q) (hi : owPin i = some pin) (hpin : pinUsable c pin = true) (hcmd : q.cmd = u.seq.cmd) :
      CommandEffect c i u (pinDriveLow pin.toNat (u.setSeq q))
  | release (i pin u) (hi : owPin i = some pin) (hpin : pinUsable c pin = true) :
      CommandEffect c i u (pinRelease pin.toNat u)
  | manNibbler (b u) : CommandEffect c (.manNibbler b) u (manNibblerAction b u)
  | manDecode (in1 in0 u) : CommandEffect c (.manDecode in1 in0) u (manDecodeAction in1 in0 u)
  | rfInit (pin baud u) (h : rfInitUsable c pin baud = true) :
      CommandEffect c (.rfInit pin baud) u (rfInitAction pin baud u)
  | rfBegin (u) : CommandEffect c .rfBegin u (rfArm 2 false u)
  | rfBeginBytes (m u) (h : maxBytesUsable c m = true) :
      CommandEffect c (.rfBeginBytes m) u (rfArm m true u)
  | rfStop (u) : CommandEffect c .rfStop u ((setMode .idle u).setResult 0)
  /-- `EVT_ONTIMER` on a free slot (44_event_dispatcher.md R261). -/
  | bindSlot (slot unit delay u) (h : slotUsable c slot = true) :
      CommandEffect c (.evtOnTimer slot unit delay) u
        ((setEvtSource slot.toNat true (setSlot slot.toNat (boundSlot u unit delay) u)).setResult evtOk)
  | evtRelease (slot u) (h : slotUsable c slot = true) :
      CommandEffect c (.evtRelease slot) u (evtReleaseAction slot.toNat u)

namespace CommandEffect

variable {c : Config} {i : Instr}

/-- SEQ moves and nothing else does. -/
theorem setSeq {u : State} {q : Seq} (hcmd : q.cmd = u.seq.cmd) : CommandEffect c i u (u.setSeq q) :=
  .progress i u q u.result hcmd

/-- Only RESULT is written. -/
theorem setResult (u : State) (r : Word) : CommandEffect c i u (u.setResult r) := .progress i u u.seq r rfl

/-- Nothing is written. -/
theorem nothing (u : State) : CommandEffect c i u u := .progress i u u.seq u.result rfl

end CommandEffect

/-- The start of a byte operation's slot writes the mask only (41_onewire.md R170, R172). -/
theorem nextMask_eq (k : Nat) (u : State) : ∃ q : Seq, q.cmd = u.seq.cmd ∧ nextMask k u = u.setSeq q :=
  ⟨_, by rfl, rfl⟩

/-- The start of a read slot writes the mask and the byte being assembled only (41_onewire.md R172). -/
theorem startReadSlot_eq (k : Nat) (u : State) : ∃ q : Seq, q.cmd = u.seq.cmd ∧ startReadSlot k u = u.setSeq q := by
  unfold startReadSlot
  split
  · exact ⟨_, by rfl, rfl⟩
  · exact nextMask_eq k u

/-- The sample of a read slot writes the byte being assembled only (41_onewire.md R172). -/
theorem sampleIntoAcc_effect {c : Config} {i : Instr} (p : Nat) (u : State) :
    CommandEffect c i u (sampleIntoAcc p u) := by
  unfold sampleIntoAcc
  split
  · exact .setSeq rfl
  · exact .nothing u

/-- A one-wire command on a pin that does not exist does what a refused command does (41_onewire.md R163). -/
theorem onPin_action {c : Config} {pin : Byte} {P : MicroProgram} {k : Nat} {u v : State}
    (h : (onPin c pin P).action k u = .ok v) :
    (pinUsable c pin = true ∧ P.action k u = .ok v) ∨ v = (raiseArgErr u).setResult argRefused := by
  unfold onPin at h
  split at h
  · exact .inl ⟨‹_›, h⟩
  · cases h; exact .inr rfl

/-- The action of each one-wire phase is one effect of its command (41_onewire.md R165 to R172). -/
theorem owAction_effect {c : Config} {i : Instr} {pin : Byte} {k : Nat} {u v : State} (hi : owPin i = some pin)
    (h : (programOf c i).action k u = .ok v) : CommandEffect c i u v := by
  cases i <;> cases hi
  case owReset =>
    rcases onPin_action h with ⟨hpin, h⟩ | rfl
    · simp only [owResetProgram] at h
      split at h
      · cases h; exact .driveLow _ _ u u.seq rfl hpin rfl
      · split at h
        · cases h; exact .release _ _ u rfl hpin
        · split at h <;> cases h
          · exact .setSeq rfl
          · exact .nothing u
    · exact .refused ..
  case owReadBit =>
    rcases onPin_action h with ⟨hpin, h⟩ | rfl
    · simp only [owReadBitProgram] at h
      split at h
      · cases h; exact .driveLow _ _ u u.seq rfl hpin rfl
      · split at h <;> cases h
        · exact .release _ _ u rfl hpin
        · exact .setSeq rfl
    · exact .refused ..
  case owWriteBit =>
    rcases onPin_action h with ⟨hpin, h⟩ | rfl
    · simp only [owWriteBitProgram] at h
      split at h <;> cases h
      · exact .driveLow _ _ u u.seq rfl hpin rfl
      · exact .release _ _ u rfl hpin
    · exact .refused ..
  case owReadByte =>
    rcases onPin_action h with ⟨hpin, h⟩ | rfl
    · simp only [owReadByteProgram] at h
      split at h
      · cases h
        obtain ⟨q, hq, he⟩ := startReadSlot_eq (k / 4) u
        rw [he]
        exact .driveLow _ _ u q rfl hpin hq
      · split at h
        · cases h; exact .release _ _ u rfl hpin
        · split at h <;> cases h
          · exact sampleIntoAcc_effect _ u
          · exact .nothing u
    · exact .refused ..
  case owWriteByte =>
    rcases onPin_action h with ⟨hpin, h⟩ | rfl
    · simp only [owWriteByteProgram] at h
      split at h
      · cases h
        obtain ⟨q, hq, he⟩ := nextMask_eq (k / 3) u
        rw [he]
        exact .driveLow _ _ u q rfl hpin hq
      · split at h <;> cases h
        · exact .release _ _ u rfl hpin
        · exact .nothing u
    · exact .refused ..

/-- A read of BUF by `RF_GETMSG` writes RESULT only (43_rf433.md R216). -/
theorem rfGetMsgAction_ok {u v : State} (h : rfGetMsgAction u = .ok v) : ∃ r, v = u.setResult r := by
  unfold rfGetMsgAction at h
  split at h
  · cases h
  · split at h <;> cases h
    exact ⟨_, rfl⟩

/-- A read of BUF by `RF_RDBUF` writes RESULT only (43_rf433.md R218). -/
theorem rfRdBufAction_ok {n : Nat} {u v : State} (h : rfRdBufAction n u = .ok v) : ∃ r, v = u.setResult r := by
  unfold rfRdBufAction at h
  split at h <;> cases h
  exact ⟨_, rfl⟩

/-- The action of every phase of every command is one effect of that command. -/
theorem programOf_action_effect {c : Config} {i : Instr} {k : Nat} {u v : State}
    (h : (programOf c i).action k u = .ok v) : CommandEffect c i u v := by
  cases i with
  | owReset | owReadBit | owWriteBit | owReadByte | owWriteByte => exact owAction_effect rfl h
  | nop | millis | micros | manEncode | rfComplete => cases h; exact .setResult u _
  | delayUs | delayMs => cases h; exact .nothing u
  | millisInit => cases h; exact .millisInit u
  | manDecode => cases h; exact .manDecode _ _ u
  | manNibbler => cases h; exact .manNibbler _ u
  | rfBegin => cases h; exact .rfBegin u
  | rfStop => cases h; exact .rfStop u
  | rfGetMsg =>
    obtain ⟨r, rfl⟩ := rfGetMsgAction_ok h
    exact .setResult u r
  | rfInit pin baud =>
    simp only [programOf] at h
    split at h <;> cases h
    · exact .rfInit _ _ u ‹_›
    · exact .refused ..
  | rfBeginBytes m =>
    simp only [programOf] at h
    split at h <;> cases h
    · exact .rfBeginBytes _ u ‹_›
    · exact .refused ..
  | rfRdBuf index =>
    simp only [programOf] at h
    split at h
    · obtain ⟨r, rfl⟩ := rfRdBufAction_ok h
      exact .setResult u r
    · cases h; exact .refused ..
  | evtOnTimer slot unit delay =>
    simp only [programOf] at h
    split at h <;> cases h
    · unfold evtOnTimerAction
      split
      · exact .setResult u _
      · exact .bindSlot _ _ _ u (Bool.and_eq_true_iff.1 ‹_›).1
    · exact .refused ..
  | evtRelease slot =>
    simp only [programOf] at h
    split at h <;> cases h
    · exact .evtRelease _ u ‹_›
    · exact .refused ..

/-- The completion of every one-wire command writes RESULT at most. -/
theorem onPin_finish {c : Config} {pin : Byte} {P : MicroProgram} {u : State} {r : Word}
    (h : P.finish u = u.setResult r) : ∃ r', (onPin c pin P).finish u = u.setResult r' := by
  unfold onPin
  split
  · exact ⟨r, h⟩
  · exact ⟨u.result, rfl⟩

/-- The completion of every command writes RESULT at most (10_state.md R25a). -/
theorem programOf_finish (c : Config) (i : Instr) (u : State) :
    ∃ r, (programOf c i).finish u = u.setResult r := by
  cases i with
  | owReset | owReadBit | owWriteBit | owReadByte | owWriteByte => exact onPin_finish (by rfl)
  | delayUs | delayMs => exact ⟨_, rfl⟩
  | nop | millisInit | millis | micros | manEncode | manDecode | manNibbler | rfBegin | rfComplete | rfGetMsg
  | rfStop => exact ⟨u.result, rfl⟩
  | rfInit | rfBeginBytes | rfRdBuf | evtOnTimer | evtRelease =>
    refine ⟨u.result, ?_⟩
    simp only [programOf]
    split <;> rfl

/-- What every effect of a command keeps, the entry of its phases keeps. -/
theorem enterPhases_of_effects {c : Config} {i : Instr} (Q : State → Prop)
    (heff : ∀ u v, CommandEffect c i u v → Q u → Q v) (r : Nat) :
    ∀ s t, enterPhases (programOf c i) r s = .ok t → Q s → Q t := by
  induction r with
  | zero =>
    intro s t h hs
    cases h
    obtain ⟨r, hr⟩ := programOf_finish c i s
    rw [completeCommand, hr]
    exact heff _ _ (.setSeq rfl) (heff _ _ (.setResult s r) hs)
  | succ r ih =>
    intro s t h hs
    simp only [enterPhases] at h
    split at h
    · cases h
    · rename_i u hact
      have hu := heff _ _ (programOf_action_effect hact) hs
      split at h
      · exact ih _ _ h (heff _ _ (.setSeq rfl) hu)
      · cases h; exact heff _ _ (.setSeq rfl) hu

/-- What every effect of a command keeps, its cycle keeps. -/
theorem exec_of_effects {i : Instr} {s t : State} (Q : State → Prop)
    (heff : ∀ u v, CommandEffect s.cfg i u v → Q u → Q v) (h : exec i s = .next t) (hs : Q s) : Q t := by
  have hseq : ∀ q : Seq, q.cmd = s.seq.cmd → Q (s.setSeq q) := fun q hq => heff _ _ (.setSeq hq) hs
  rcases seqStep_cases (exec_next.1 h) with ⟨-, rfl⟩ | ⟨-, -, -, rfl⟩ | ⟨-, -, h⟩ | ⟨-, -, -, h⟩
  · exact hs
  · exact hseq _ rfl
  · exact enterPhases_of_effects Q heff _ _ _ h (hseq _ rfl)
  · exact enterPhases_of_effects Q heff _ _ _ h (hseq _ rfl)

end Sys2Proof.Machine
end

section
/-! SUPPORT. The RF handler (43_rf433.md R219 to R229): what a bit added to the assembler, an RF tick and the whole
handler can do, and that every tick keeps the receiver's invariants. -/

namespace Sys2Proof.Machine

/-! ## The assembler's byte (43_rf433.md R225 to R227) -/

/-- What emitting a byte can leave in BUF and as the target: at most one byte is stored, at `rf.curByte` and inside
BUF, and the target is kept, or is the length the first byte gives. -/
structure ByteEmitted (s : State) (m : List Host.Cell) (target : Byte) : Prop where
  store : m = s.buf ∨
    (s.rf.curByte.toNat < s.cfg.rfBufCap ∧ ∃ v, m = cellStore s.buf s.rf.curByte.toNat v)
  target : target = s.rf.maxBytes ∨
    (s.rf.curByte + 1 = 1 ∧ ∃ v, target = learnedLength v s.rf.capBytes)

/-- The learned length is the new target, and besides it only STATUS is written (43_rf433.md R227). -/
theorem learnLength_eq (v : Byte) (s : State) : ∃ st, learnLength v s =
    { s with status := st, rf := { s.rf with maxBytes := learnedLength v s.rf.capBytes } } := by
  simp only [learnLength]
  split <;> exact ⟨_, rfl⟩

/-- What `EmitByte` can do (43_rf433.md R226). -/
theorem emitByte_cases {s t : State} (h : emitByte s = .ok t) :
    ∃ m st target, ByteEmitted s m target ∧
      t = { s with buf := m, status := st, rf := { s.rf with curByte := s.rf.curByte + 1, maxBytes := target } } := by
  simp only [emitByte] at h
  split at h
  · cases h
  · rename_i s1 h1
    obtain ⟨m, hm, rfl⟩ : ∃ m, (m = s.buf ∨ (s.rf.curByte.toNat < s.cfg.rfBufCap ∧
        ∃ v, m = cellStore s.buf s.rf.curByte.toNat v)) ∧ s1 = s.setBuf m := by
      split at h1
      · obtain ⟨hcap, rfl⟩ := bufStore_ok h1
        exact ⟨_, .inr ⟨hcap, _, rfl⟩, rfl⟩
      · cases h1; exact ⟨s.buf, .inl rfl, rfl⟩
    split at h
    · rename_i hlearn
      obtain ⟨st, hst⟩ := learnLength_eq (emittedByte s)
        ((s.setBuf m).setRf { (s.setBuf m).rf with curByte := (s.setBuf m).rf.curByte + 1 })
      cases h
      exact ⟨m, st, _, ⟨hm, .inr ⟨hlearn.2, _, rfl⟩⟩, hst⟩
    · cases h
      exact ⟨m, s.status, s.rf.maxBytes, ⟨hm, .inl rfl⟩, rfl⟩

/-- What `AddManBit` can do: count one more bit, or, at the sixteenth, emit the byte and restart the count
(43_rf433.md R225). -/
theorem addManBit_cases {b : Bool} {s t : State} (h : addManBit b s = .ok t) :
    (s.rf.numMB + 1 ≠ 16 ∧ ∃ w, t = { s with rf := { s.rf with manBits := w, numMB := s.rf.numMB + 1 } }) ∨
    (s.rf.numMB + 1 = 16 ∧ ∃ w m st target, ByteEmitted s m target ∧
      t = { s with buf := m, status := st, rf := { s.rf with
        manBits := w, numMB := 0, curByte := s.rf.curByte + 1, maxBytes := target } }) := by
  unfold addManBit at h
  generalize s.rf.manBits <<< 1 ||| _ = w at h
  dsimp only at h
  split at h
  · rename_i h16
    split at h
    · cases h
    · rename_i s2 hemit
      obtain ⟨m, st, target, ⟨hstore, htarget⟩, rfl⟩ := emitByte_cases hemit
      cases h
      exact .inr ⟨h16, w, m, st, target, ⟨hstore, htarget⟩, rfl⟩
  · cases h
    exact .inl ⟨‹_›, w, rfl⟩

/-! ## The handler's frame and its store (43_rf433.md R219, R226) -/

/-- An RF tick writes the record, BUF and STATUS at most. -/
theorem rfHandler_frame {s t : State} (h : rfHandler s = .ok t) :
    ∃ r m st, t = { s with rf := r, buf := m, status := st } := by
  refine rfHandler_keeps (fun u => ∃ r m st, u = { s with rf := r, buf := m, status := st })
    ?_ ?_ ?_ h ⟨s.rf, s.buf, s.status, rfl⟩
  · rintro u r ⟨_, m, st, rfl⟩
    exact ⟨r, m, st, rfl⟩
  · rintro u m ⟨r, _, st, rfl⟩
    exact ⟨r, m, st, rfl⟩
  · rintro u ⟨r, m, st, rfl⟩
    exact ⟨r, m, _, rfl⟩

/-- BUF after an operation of the receiver: as before, or with one byte stored at `rf.curByte`, inside BUF. -/
def StoresAtMostCurByte (s t : State) : Prop :=
  t.buf = s.buf ∨ (s.rf.curByte.toNat < s.cfg.rfBufCap ∧ ∃ v, t.buf = cellStore s.buf s.rf.curByte.toNat v)

/-- A bit added stores at most the current byte, and where it emits a byte the count restarts. -/
theorem addManBit_stores {b : Bool} {s t : State} (h : addManBit b s = .ok t) :
    t.cfg = s.cfg ∧ ((t.buf = s.buf ∧ t.rf.curByte = s.rf.curByte) ∨
      (StoresAtMostCurByte s t ∧ t.rf.numMB + 1 ≠ 16)) := by
  rcases addManBit_cases h with ⟨-, w, rfl⟩ | ⟨-, w, m, st, target, hb, rfl⟩
  · exact ⟨rfl, .inl ⟨rfl, rfl⟩⟩
  · exact ⟨rfl, .inr ⟨hb.store, fun h16 => absurd h16 (by decide : (0 : BitVec 5) + 1 ≠ 16)⟩⟩

/-- The end test and the add of DATA store at most the current byte, and nothing unless the sixteenth bit arrives. -/
theorem rfDataEdge_stores {s t : State} (h : rfDataEdge s = .ok t) :
    StoresAtMostCurByte s t ∧ (s.rf.numMB + 1 ≠ 16 → t.buf = s.buf) := by
  simp only [rfDataEdge] at h
  split at h
  · cases h; exact ⟨.inl rfl, fun _ => rfl⟩
  · split at h
    · cases h
    · rename_i u hu
      cases h
      rcases addManBit_cases hu with ⟨-, w, rfl⟩ | ⟨h16, w, m, st, target, hb, rfl⟩
      · exact ⟨.inl rfl, fun _ => rfl⟩
      · exact ⟨hb.store, fun hne => absurd h16 hne⟩

/-- Mode DATA stores at most the current byte: of the two bits of a long pulse at most one is a sixteenth. -/
theorem rfData_stores {tr : Bool} {s t : State} (h : rfData tr s = .ok t) : StoresAtMostCurByte s t := by
  simp only [rfData] at h
  split at h
  · split at h
    · cases h; exact .inl rfl
    · exact (rfDataEdge_stores h).1
    · split at h
      · cases h
      · rename_i u hu
        obtain ⟨hedge, hquiet⟩ := rfDataEdge_stores h
        obtain ⟨hcfg, ⟨hbuf, hcur⟩ | ⟨hstore, hnum⟩⟩ := addManBit_stores hu
        · simpa only [StoresAtMostCurByte, hbuf, hcur, hcfg] using hedge
        · simpa only [StoresAtMostCurByte, hquiet hnum] using hstore
  · cases h; exact .inl rfl

/-- The modes PRE and SYNC write the record only (43_rf433.md R222, R223). -/
theorem rfPre_frame (tr : Bool) (s : State) : ∃ r, rfPre tr s = s.setRf r := by
  unfold rfPre
  split
  · exact ⟨_, rfl⟩
  · exact ⟨s.rf, rfl⟩

/-- Mode SYNC writes the record only (43_rf433.md R223). -/
theorem rfSync_frame (tr : Bool) (s : State) : ∃ r, rfSync tr s = s.setRf r := by
  unfold rfSync
  split
  · split
    · exact ⟨_, rfl⟩
    · exact ⟨_, rfl⟩
    · unfold rfSyncLong
      split <;> exact ⟨_, rfl⟩
  · exact ⟨s.rf, rfl⟩

/-- What an RF tick is, by the mode at entry (43_rf433.md R219). -/
theorem rfHandler_cases {s t : State} (h : rfHandler s = .ok t) :
    ((s.rf.mode = .msg ∨ s.rf.mode = .idle) ∧ t = s) ∨
    ∃ tr u, tr = ((rfSample s).rf.sample != (rfSample s).rf.lastSample) ∧ t = rfRecordSample u ∧
      ((s.rf.mode = .pre ∧ u = rfPre tr (rfSample s)) ∨ (s.rf.mode = .sync ∧ u = rfSync tr (rfSample s)) ∨
        (s.rf.mode = .data ∧ rfData tr (rfSample s) = .ok u)) := by
  have hmode : (rfSample s).rf.mode = s.rf.mode := rfl
  simp only [rfHandler, hmode] at h
  split at h
  · cases h; exact .inl ⟨‹_›, rfl⟩
  · rename_i hrun
    split at h
    · cases h
    · rename_i u hu
      cases h
      refine .inr ⟨_, u, rfl, rfl, ?_⟩
      cases hm : s.rf.mode <;> rw [hm] at hu hrun
      case pre => exact .inl ⟨rfl, (Except.ok.inj hu).symm⟩
      case sync => exact .inr (.inl ⟨rfl, (Except.ok.inj hu).symm⟩)
      case data => exact .inr (.inr ⟨rfl, hu⟩)
      case msg => exact absurd (.inl rfl) hrun
      case idle => exact absurd (.inr rfl) hrun

/-- An RF tick that writes the record only leaves BUF. -/
theorem rfTick_buf (s : State) (r : RfRecord) : (rfRecordSample ((rfSample s).setRf r)).buf = s.buf := by
  simp [rfRecordSample, rfSample]

/-- An RF tick stores at most the current byte, and only in mode DATA (10_state.md R37, 43_rf433.md R226). -/
theorem rfHandler_stores {s t : State} (h : rfHandler s = .ok t) :
    StoresAtMostCurByte s t ∧ (s.rf.mode ≠ .data → t.buf = s.buf) := by
  rcases rfHandler_cases h with ⟨-, rfl⟩ | ⟨tr, u, -, rfl, hu⟩
  · exact ⟨.inl rfl, fun _ => rfl⟩
  · rcases hu with ⟨-, rfl⟩ | ⟨-, rfl⟩ | ⟨hm, hu⟩
    · obtain ⟨r, hr⟩ := rfPre_frame tr (rfSample s)
      rw [hr]
      exact ⟨.inl (rfTick_buf s r), fun _ => rfTick_buf s r⟩
    · obtain ⟨r, hr⟩ := rfSync_frame tr (rfSample s)
      rw [hr]
      exact ⟨.inl (rfTick_buf s r), fun _ => rfTick_buf s r⟩
    · have hstore : StoresAtMostCurByte (rfSample s) u := rfData_stores hu
      exact ⟨hstore, fun hne => absurd hm hne⟩

/-! ## The receiver's invariants (10_state.md R36, 43_rf433.md R229) -/

/-- Every byte of the frame has been received. -/
abbrev FrameFull (r : RfRecord) : Prop := r.curByte = r.maxBytes

/-- The part of the receiver's invariants that holds in every mode but IDLE and between the two bits of a pulse. -/
abbrev AssemblerOk (c : Config) (r : RfRecord) : Prop :=
  r.numMB.toNat ≤ 15 ∧ r.curByte.toNat ≤ r.maxBytes.toNat ∧ 1 ≤ r.capBytes.toNat ∧
    r.maxBytes.toNat ≤ r.capBytes.toNat ∧ r.capBytes.toNat ≤ c.rfBufCap

/-- Outside IDLE the receiver's invariants hold the assembler's. -/
theorem assemblerOk_of_rfInv {s : State} (h : RfInv s) (hm : s.rf.mode ≠ .idle) : AssemblerOk s.cfg s.rf := by
  obtain ⟨hnum, hcur, hcap, -, -, -⟩ := h
  obtain ⟨hpos, hmax, hle⟩ := hcap hm
  exact ⟨hnum, hcur, hpos, hmax, hle⟩

/-- The receiver's invariants from the assembler's, where the mode is neither SYNC nor DATA. -/
theorem rfInv_of_mode {s : State} (ha : AssemblerOk s.cfg s.rf)
    (hcount : s.rf.syncCount.toNat ≤ 2 * s.cfg.syncPulseMax + 1) (hsync : s.rf.mode ≠ .sync)
    (hdata : s.rf.mode ≠ .data) : RfInv s :=
  let ⟨hnum, hcur, hcap⟩ := ha
  ⟨hnum, hcur, fun _ => hcap, hcount, fun hm => absurd hm hsync, fun hm => absurd hm hdata⟩

/-- The receiver's invariants from the assembler's, in DATA. -/
theorem rfInv_of_data {s : State} (ha : AssemblerOk s.cfg s.rf)
    (hcount : s.rf.syncCount.toNat ≤ 2 * s.cfg.syncPulseMax + 1) (hm : s.rf.mode = .data)
    (hfull : FrameFull s.rf → s.rf.numMB.toNat ≤ if s.rf.lastSample then 0 else 2) : RfInv s :=
  let ⟨hnum, hcur, hcap⟩ := ha
  ⟨hnum, hcur, fun _ => hcap, hcount, fun hs => absurd (hm.symm.trans hs) (by decide), fun _ => hfull⟩

/-- A learned length is positive and not above the capacity (43_rf433.md R227). -/
theorem learnedLength_bounds (v : Byte) {cap : Byte} (h : 1 ≤ cap.toNat) :
    1 ≤ (learnedLength v cap).toNat ∧ (learnedLength v cap).toNat ≤ cap.toNat := by
  have hcap := cap.isLt
  rw [learnedLength, BitVec.toNat_ofNat, Nat.mod_eq_of_lt (by omega)]
  omega

/-- A bit added keeps the assembler's invariants, unless it is the sixteenth of a byte beyond the last one. A frame
it completes has no bit left over; in a frame already complete it counts one more bit (43_rf433.md R229). -/
theorem addManBit_assemblerOk {b : Bool} {s t : State} (h : addManBit b s = .ok t) (ha : AssemblerOk s.cfg s.rf)
    (hfull : FrameFull s.rf → s.rf.numMB.toNat ≤ 14) :
    AssemblerOk s.cfg t.rf ∧
      (FrameFull t.rf → t.rf.numMB.toNat = 0 ∨ (FrameFull s.rf ∧ t.rf.numMB.toNat = s.rf.numMB.toNat + 1)) ∧
      ∃ m st w n cur target, t = { s with buf := m, status := st, rf := { s.rf with
        manBits := w, numMB := n, curByte := cur, maxBytes := target } } := by
  obtain ⟨hnum, hcur, hpos, hmax, hcap⟩ := ha
  rcases addManBit_cases h with ⟨h16, w, rfl⟩ | ⟨h16, w, m, st, target, ⟨-, htarget⟩, rfl⟩
  · have hnext : (s.rf.numMB + 1).toNat = s.rf.numMB.toNat + 1 := by bv_omega
    refine ⟨⟨?_, hcur, hpos, hmax, hcap⟩,
      fun hf => .inr ⟨hf, hnext⟩, s.buf, s.status, _, _, _, _, rfl⟩
    show (s.rf.numMB + 1).toNat ≤ 15
    bv_omega
  · have hnotFull : s.rf.curByte.toNat ≠ s.rf.maxBytes.toNat := fun he => by
      have := hfull (BitVec.eq_of_toNat_eq he)
      bv_omega
    have hmax256 := s.rf.maxBytes.isLt
    have hnext : (s.rf.curByte + 1).toNat = s.rf.curByte.toNat + 1 := by bv_omega
    have hbounds : (s.rf.curByte + 1).toNat ≤ target.toNat ∧ target.toNat ≤ s.rf.capBytes.toNat := by
      rcases htarget with rfl | ⟨hone, v, rfl⟩
      · omega
      · obtain ⟨hlo, hhi⟩ := learnedLength_bounds v hpos
        rw [hone]
        exact ⟨hlo, hhi⟩
    exact ⟨⟨Nat.zero_le _, hbounds.1, hpos, hbounds.2, hcap⟩, fun _ => .inl rfl,
      m, st, w, 0, _, target, rfl⟩

/-- The end test and the add of DATA keep the receiver's invariants: a complete frame ends at a 1, and takes at most
one more bit at a 0 (43_rf433.md R224, R229). -/
theorem rfDataEdge_rfInv {s t : State} (h : rfDataEdge s = .ok t) (ha : AssemblerOk s.cfg s.rf)
    (hm : s.rf.mode = .data) (hcount : s.rf.syncCount.toNat ≤ 2 * s.cfg.syncPulseMax + 1)
    (hfull : FrameFull s.rf → s.rf.sample = false → s.rf.numMB.toNat ≤ 1) : RfInv (rfRecordSample t) := by
  simp only [rfDataEdge] at h
  split at h
  · cases h
    exact rfInv_of_mode ha
      hcount (fun h => RfMode.noConfusion h) (fun h => RfMode.noConfusion h)
  · rename_i hgo
    split at h
    · cases h
    · rename_i u hu
      cases h
      have hlow : FrameFull s.rf → s.rf.sample = false := fun hf => by
        cases hs : s.rf.sample
        · rfl
        · exact absurd ⟨hs, hf⟩ hgo
      obtain ⟨hu', hcomplete, m, st, w, n, cur, target, rfl⟩ :=
        addManBit_assemblerOk hu ha (fun hf => Nat.le_trans (hfull hf (hlow hf)) (by decide))
      refine rfInv_of_data hu' hcount hm ?_
      intro hf
      show n.toNat ≤ if s.rf.sample then 0 else 2
      rcases hcomplete hf with h0 | ⟨hfs, h1⟩
      · exact Nat.le_trans (Nat.le_of_eq h0) (Nat.zero_le _)
      · have hle := hfull hfs (hlow hfs)
        rw [hlow hfs, if_neg Bool.false_ne_true]
        have h1 : n.toNat = s.rf.numMB.toNat + 1 := h1
        omega

/-- Mode DATA keeps the receiver's invariants (43_rf433.md R224, R229). -/
theorem rfData_rfInv {tr : Bool} {s t : State} (h : rfData tr s = .ok t) (hs : RfInv s) (hm : s.rf.mode = .data)
    (htr : tr = (s.rf.sample != s.rf.lastSample)) : RfInv (rfRecordSample t) := by
  have ha := assemblerOk_of_rfInv hs (by rw [hm]; decide)
  obtain ⟨-, -, -, hcount, -, hdata⟩ := hs
  have hfull := hdata hm
  have hlast : s.rf.sample = false → tr = true → s.rf.lastSample = true := by
    intro h0 h1
    rw [htr, h0] at h1
    simpa using h1
  simp only [rfData] at h
  split at h
  · rename_i htrue
    split at h
    · cases h
      exact rfInv_of_mode ha
        hcount (fun h => RfMode.noConfusion h) (fun h => RfMode.noConfusion h)
    · refine rfDataEdge_rfInv h ha hm hcount (fun hf h0 => ?_)
      have := hfull hf
      rw [hlast h0 htrue, if_pos rfl] at this
      omega
    · split at h
      · cases h
      · rename_i u hu
        have h14 : FrameFull s.rf → s.rf.numMB.toNat ≤ 14 := fun hf => by
          have := hfull hf
          split at this <;> omega
        obtain ⟨hu', hcomplete, m, st, w, n, cur, target, rfl⟩ := addManBit_assemblerOk hu ha h14
        refine rfDataEdge_rfInv h hu' hm hcount (fun hf h0 => ?_)
        rcases hcomplete hf with hn | ⟨hfs, hn⟩
        · omega
        · have := hfull hfs
          rw [hlast h0 htrue, if_pos rfl] at this
          omega
  · rename_i hfalse
    cases h
    have hsame : s.rf.sample = s.rf.lastSample := by simpa [htr] using hfalse
    exact rfInv_of_data ha
      hcount hm (fun hf => by rw [show (rfRecordSample s).rf.lastSample = s.rf.lastSample from hsame]; exact hfull hf)

/-- Mode PRE keeps the receiver's invariants (43_rf433.md R222). -/
theorem rfPre_rfInv (tr : Bool) {s : State} (hs : RfInv s) (hm : s.rf.mode = .pre) :
    RfInv (rfRecordSample (rfPre tr s)) := by
  have ha := assemblerOk_of_rfInv hs (by rw [hm]; decide)
  obtain ⟨-, -, -, hcount, -, -⟩ := hs
  unfold rfPre
  split
  · exact ⟨ha.1, ha.2.1, fun _ => ha.2.2,
      Nat.zero_le _, fun _ => Nat.zero_le _, fun hd => RfMode.noConfusion hd⟩
  · exact rfInv_of_mode ha
      hcount (show s.rf.mode ≠ _ by rw [hm]; decide) (show s.rf.mode ≠ _ by rw [hm]; decide)

/-- Mode SYNC keeps the receiver's invariants: the count of regular transitions passes its bound by one at most, and
then the mode is left (43_rf433.md R223). -/
theorem rfSync_rfInv (tr : Bool) {s : State} (hv : s.cfg.RfValid) (hs : RfInv s) (hm : s.rf.mode = .sync) :
    RfInv (rfRecordSample (rfSync tr s)) := by
  have ha := assemblerOk_of_rfInv hs (by rw [hm]; decide)
  obtain ⟨-, -, -, hcount, hsync, -⟩ := hs
  have hbound := hsync hm
  have hmax : s.cfg.syncPulseMax ≤ 126 := hv.2.1.2
  have toPre : RfInv (rfRecordSample (setMode .pre s)) :=
    rfInv_of_mode ha
      hcount (fun h => RfMode.noConfusion h) (fun h => RfMode.noConfusion h)
  unfold rfSync
  split
  · split
    · exact toPre
    · have hnext : (s.rf.syncCount + 1).toNat = s.rf.syncCount.toNat + 1 := by bv_omega
      refine ⟨ha.1, ha.2.1, fun _ => ha.2.2, ?_, ?_, ?_⟩
      · show (s.rf.syncCount + 1).toNat ≤ _
        exact hnext ▸ Nat.succ_le_succ hbound
      · show (if 2 * s.cfg.syncPulseMax < (s.rf.syncCount + 1).toNat then RfMode.pre else s.rf.mode) = .sync →
          (s.rf.syncCount + 1).toNat ≤ _
        split
        · intro hc; cases hc
        · intro _; exact Nat.le_of_not_lt ‹_›
      · show (if 2 * s.cfg.syncPulseMax < (s.rf.syncCount + 1).toNat then RfMode.pre else s.rf.mode) = .data → _
        rw [hm]
        split <;> intro hc <;> cases hc
    · unfold rfSyncLong
      split
      · exact rfInv_of_data ⟨Nat.zero_le _, Nat.zero_le _, ha.2.2⟩
          hcount rfl (fun _ => Nat.zero_le _)
      · exact toPre
  · exact ⟨ha.1, ha.2.1, fun _ => ha.2.2, hcount,
      fun _ => hbound, fun hd => by rw [show (rfRecordSample s).rf.mode = _ from hm] at hd; cases hd⟩

/-- An RF tick keeps the receiver's invariants (10_state.md R36). -/
theorem rfHandler_rfInv {s t : State} (h : rfHandler s = .ok t) (hv : s.cfg.RfValid) (hs : RfInv s) : RfInv t := by
  rcases rfHandler_cases h with ⟨-, rfl⟩ | ⟨tr, u, htr, rfl, hu⟩
  · exact hs
  · have hsample : RfInv (rfSample s) := hs
    rcases hu with ⟨hm, rfl⟩ | ⟨hm, rfl⟩ | ⟨hm, hu⟩
    · exact rfPre_rfInv tr hsample hm
    · exact rfSync_rfInv tr hv hsample hm
    · exact rfData_rfInv hu hsample hm htr

/-- An RF tick keeps BUF in its canonical form and inside its capacity (10_state.md R37). -/
theorem rfHandler_bufInv {s t : State} (h : rfHandler s = .ok t) (hs : BufInv s) : BufInv t := by
  obtain ⟨hwf, hcap⟩ := hs
  obtain ⟨r, m, st, rfl⟩ := rfHandler_frame h
  rcases (rfHandler_stores h).1 with hbuf | ⟨hcur, v, hbuf⟩ <;> simp only [] at hbuf <;> subst hbuf
  · exact ⟨hwf, hcap⟩
  · refine ⟨wf_cellStore _ _ hwf, fun p hp => ?_⟩
    rcases mem_cellStore hp with rfl | hp
    · exact hcur
    · exact hcap p hp

end Sys2Proof.Machine
end

section
/-! SUPPORT. The invariant of the block, part by part of the cycle (10_state.md R36; 70_reset_and_hazards.md R330): what
the host's access, the timers, an interrupt and the command in progress do to it. -/

namespace Sys2Proof.Machine

/-- The invariant of the block without what it says of SEQ, so that every write of SEQ keeps it. -/
structure CoreInv (s : State) : Prop where
  valid : s.cfg.Valid
  timers : TimersInv s
  rf : RfInv s
  buf : BufInv s
  pins : PinInv s

/-- The invariant of the block is that of its core, and that a command in progress is a legal word. -/
theorem inv_iff {s : State} : Inv s ↔ CoreInv s ∧ SeqInv s :=
  ⟨fun ⟨hv, ht, hr, hb, hs, hp⟩ => ⟨⟨hv, ht, hr, hb, hp⟩, hs⟩,
    fun ⟨⟨hv, ht, hr, hb, hp⟩, hs⟩ => ⟨hv, ht, hr, hb, hs, hp⟩⟩

/-- The mask of an EVT slot that exists has its bit. -/
theorem evtMask_bit {c : Config} {k : Nat} (hk : k < c.nEvt) : k < 8 → (evtMask c).getLsbD k = true :=
  fun h8 => by rw [evtMask_getLsbD _ h8, decide_eq_true hk]

namespace CoreInv

variable {s : State}

theorem timersValid (h : CoreInv s) : s.cfg.TimersValid := h.valid.2.1

theorem rfValid (h : CoreInv s) : s.cfg.RfValid := h.valid.2.2.2.2.1

/-! ## The fields the invariant speaks of -/

/-- A TICK timer just started. -/
theorem setTt (h : CoreInv s) {t : Timer} (ht : TimerOk s.cfg t) : CoreInv (s.setTt t) := by
  obtain ⟨hv, ⟨-, hrt, hevt, hlen, hie, hif⟩, hr, hb, hp⟩ := h
  exact ⟨hv, ⟨ht, hrt, hevt, hlen, hie, hif⟩, hr, hb, hp⟩

/-- An RF timer just started. -/
theorem setRt (h : CoreInv s) {t : Timer} (ht : TimerOk s.cfg t) : CoreInv (s.setRt t) := by
  obtain ⟨hv, ⟨htt, -, hevt, hlen, hie, hif⟩, hr, hb, hp⟩ := h
  exact ⟨hv, ⟨htt, ht, hevt, hlen, hie, hif⟩, hr, hb, hp⟩

/-- INTCON with no EVT bit of a slot that does not exist. -/
theorem setIntcon (h : CoreInv s) {x : IntCon} (hie : x.ieEvt &&& ~~~(evtMask s.cfg) = 0)
    (hif : x.ifEvt &&& ~~~(evtMask s.cfg) = 0) : CoreInv (s.setIntcon x) := by
  obtain ⟨hv, ⟨htt, hrt, hevt, hlen, -, -⟩, hr, hb, hp⟩ := h
  exact ⟨hv, ⟨htt, hrt, hevt, hlen, hie, hif⟩, hr, hb, hp⟩

/-- The IE and IF bits of a slot that exists (44_event_dispatcher.md R261, R265). -/
theorem setEvtSource (h : CoreInv s) {k : Nat} (on : Bool) (hk : k < s.cfg.nEvt) : CoreInv (setEvtSource k on s) := by
  obtain ⟨-, -, -, -, hie, hif⟩ := h.timers
  exact h.setIntcon (setBit_and_not_eq_zero on hie (evtMask_bit hk))
    (setBit_and_not_eq_zero false hif (evtMask_bit hk))

/-- A slot written with a slot that meets the slots' invariant. -/
theorem setSlot (h : CoreInv s) (k : Nat) {e : EvtSlot} (he : SlotOk s.cfg e) : CoreInv (setSlot k e s) := by
  obtain ⟨hv, ⟨htt, hrt, hevt, hlen, hie, hif⟩, hr, hb, hp⟩ := h
  refine ⟨hv, ⟨htt, hrt, fun x hx => ?_, ?_, hie, hif⟩, hr, hb, hp⟩
  · rcases List.mem_or_eq_of_mem_set hx with hx | rfl
    · exact hevt x hx
    · exact he
  · exact (setSlot_evt_length k e s).trans hlen

/-- Every slot meets the slots' invariant, and so does what a slot that does not exist reads as. -/
theorem slotOk (h : CoreInv s) (k : Nat) : SlotOk s.cfg (slotAt s k) := by
  obtain ⟨-, -, hevt, -, -, -⟩ := h.timers
  by_cases hk : k < s.evt.length
  · have hget : slotAt s k = s.evt[k] := by simp [slotAt, hk]
    exact hget ▸ hevt _ (List.getElem_mem hk)
  · have hget : slotAt s k = EvtSlot.reset := by simp [slotAt, Nat.le_of_not_lt hk]
    exact hget ▸ ⟨timerOk_reset _, rfl, by decide⟩

/-- A receiver's record that meets the receiver's invariants. -/
theorem setRf (h : CoreInv s) {r : RfRecord} (hr : RfInv (s.setRf r)) : CoreInv (s.setRf r) :=
  ⟨h.valid, h.timers, hr, h.buf, h.pins⟩

/-- A pin that exists driven low (41_onewire.md R162). -/
theorem pinDriveLow (h : CoreInv s) {p : Nat} (hp : p < s.cfg.npins) : CoreInv (pinDriveLow p s) := by
  obtain ⟨hlat, hdir⟩ := h.pins
  refine ⟨h.valid, h.timers, h.rf, h.buf, ?_, setBit_and_not_eq_zero true hdir fun h32 => ?_⟩
  · show setBit s.pinLat p false = 0
    rw [hlat]
    exact setBit_zero_false p
  · exact (pinMask_getLsbD _ h32).trans (decide_eq_true hp)

/-- A pin that exists released (41_onewire.md R162). -/
theorem pinRelease (h : CoreInv s) {p : Nat} (hp : p < s.cfg.npins) : CoreInv (pinRelease p s) := by
  obtain ⟨hlat, hdir⟩ := h.pins
  refine ⟨h.valid, h.timers, h.rf, h.buf, hlat, setBit_and_not_eq_zero false hdir fun h32 => ?_⟩
  exact (pinMask_getLsbD _ h32).trans (decide_eq_true hp)

/-! ## The commands -/

/-- Arming the receiver for a frame that fits BUF starts it in PRE with nothing received (43_rf433.md R213, R214). -/
theorem rfArm (h : CoreInv s) {m : Byte} {lenpfx : Bool} (hpos : 1 ≤ m.toNat) (hcap : m.toNat ≤ s.cfg.rfBufCap) :
    CoreInv (rfArm m lenpfx s) := by
  obtain ⟨-, -, -, hcount, -, -⟩ := h.rf
  exact ⟨h.valid, h.timers,
    ⟨Nat.zero_le _, Nat.zero_le _, fun _ => ⟨hpos, Nat.le_refl _, hcap⟩, hcount,
      fun hm => RfMode.noConfusion hm, fun hm => RfMode.noConfusion hm⟩, h.buf, h.pins⟩

/-- `RF_INIT` on usable operands leaves the receiver idle (43_rf433.md R211). -/
theorem rfInitAction (h : CoreInv s) {pin : Byte} {baud : Half} (hu : rfInitUsable s.cfg pin baud = true) :
    CoreInv (rfInitAction pin baud s) := by
  simp only [rfInitUsable, pinUsable, Bool.and_eq_true, decide_eq_true_eq] at hu
  obtain ⟨⟨⟨hpin, -⟩, -⟩, -⟩ := hu
  obtain ⟨hps, hpr⟩ := timerFit_inRange h.timersValid (rfTickCycles s.cfg baud)
  have hempty : CoreInv ((Machine.pinRelease pin.toNat s).setRf
      ⟨pin, false, false, 0, 0, .idle, 0, 0, 0, 0, 0, false⟩) :=
    (h.pinRelease hpin).setRf ⟨Nat.zero_le _, Nat.zero_le _, fun hm => absurd rfl hm, Nat.zero_le _,
      fun hm => RfMode.noConfusion hm, fun hm => RfMode.noConfusion hm⟩
  obtain ⟨hv, ht, hr, hb, hp⟩ := hempty.setRt (timerOk_startTimer h.timersValid hps hpr)
  exact ⟨hv, ht, hr, hb, hp⟩

/-- `RF_STOP` keeps what the receiver has counted (43_rf433.md R217). -/
theorem rfStop (h : CoreInv s) : CoreInv (setMode .idle s) := by
  obtain ⟨hnum, hcur, -, hcount, -, -⟩ := h.rf
  exact h.setRf ⟨hnum, hcur, fun hm => absurd rfl hm, hcount, fun hm => RfMode.noConfusion hm,
    fun hm => RfMode.noConfusion hm⟩

/-- `MILLIS_INIT` starts the TICK timer with a divisor and a period that fit it (40_tick_delay.md R131). -/
theorem millisInitAction (h : CoreInv s) : CoreInv (millisInitAction s) := by
  obtain ⟨hps, hpr⟩ := timerFit_inRange h.timersValid (s.cfg.fClk / 1000)
  obtain ⟨hv, ht, hr, hb, hp⟩ := h.setTt (timerOk_startTimer h.timersValid hps hpr)
  exact ⟨hv, ht, hr, hb, hp⟩

/-- The slot `EVT_ONTIMER` leaves meets the slots' invariant (44_event_dispatcher.md R261). -/
theorem boundSlot (h : CoreInv s) (u : BitVec 2) (d : Half) : SlotOk s.cfg (boundSlot s u d) := by
  obtain ⟨hps, hpr⟩ := evtFit_inRange h.timersValid (unitCycles s.cfg u)
  exact ⟨timerOk_startTimer h.timersValid hps hpr, rfl,
    lt_max_of_lt_left Nat.one_pos⟩

/-- `EVT_RELEASE` on a slot that exists (44_event_dispatcher.md R265). -/
theorem evtReleaseAction (h : CoreInv s) {k : Nat} (hk : k < s.cfg.nEvt) : CoreInv (evtReleaseAction k s) := by
  obtain ⟨⟨hpr, htmr, -⟩, -, -⟩ := h.slotOk k
  have hslot : SlotOk s.cfg (releasedSlot (slotAt s k)) :=
    ⟨⟨hpr, htmr, fun hon => Bool.noConfusion hon⟩, rfl, lt_max_of_lt_left Nat.one_pos⟩
  obtain ⟨hv, ht, hr, hb, hp⟩ := (h.setSlot k hslot).setEvtSource false hk
  exact ⟨hv, ht, hr, hb, hp⟩

end CoreInv

/-- No effect of a command changes the parameters. -/
theorem CommandEffect.cfg_eq {c : Config} {i : Instr} {u v : State} (h : CommandEffect c i u v) :
    v.cfg = u.cfg := by
  cases h <;> rfl

/-- Every effect of a command keeps the core of the invariant. -/
theorem CommandEffect.keeps_coreInv {i : Instr} {u v : State} (h : CommandEffect u.cfg i u v) (hu : CoreInv u) :
    CoreInv v := by
  cases h with
  | progress | refused | manNibbler | manDecode => exact ⟨hu.valid, hu.timers, hu.rf, hu.buf, hu.pins⟩
  | millisInit => exact hu.millisInitAction
  | driveLow _ pin _ q _ hpin =>
    have hu' : CoreInv (u.setSeq q) := ⟨hu.valid, hu.timers, hu.rf, hu.buf, hu.pins⟩
    exact hu'.pinDriveLow (of_decide_eq_true hpin)
  | release _ pin _ _ hpin => exact hu.pinRelease (of_decide_eq_true hpin)
  | rfInit pin baud _ hpin => exact hu.rfInitAction hpin
  | rfBegin => exact hu.rfArm (by decide) hu.rfValid.2.2.1
  | rfBeginBytes m _ hm =>
    obtain ⟨hpos, hcap⟩ := of_decide_eq_true hm
    exact hu.rfArm (Nat.pos_of_ne_zero fun h0 => hpos (BitVec.eq_of_toNat_eq h0)) hcap
  | rfStop =>
    obtain ⟨hv, ht, hr, hb, hp⟩ := hu.rfStop
    exact ⟨hv, ht, hr, hb, hp⟩
  | bindSlot slot unit delay _ hslot =>
    obtain ⟨hv, ht, hr, hb, hp⟩ :=
      (hu.setSlot slot.toNat (hu.boundSlot unit delay)).setEvtSource true (of_decide_eq_true hslot)
    exact ⟨hv, ht, hr, hb, hp⟩
  | evtRelease slot _ hslot => exact hu.evtReleaseAction (of_decide_eq_true hslot)

/-- Every effect of a command keeps the command word. -/
theorem CommandEffect.cmd_eq {c : Config} {i : Instr} {u v : State} (h : CommandEffect c i u v) :
    v.seq.cmd = u.seq.cmd := by
  cases h with
  | progress _ _ q r hcmd => exact hcmd
  | driveLow _ pin _ q _ _ hcmd => exact hcmd
  | _ => rfl

/-- A command's cycle keeps its own word (10_state.md R24). -/
theorem exec_cmd {i : Instr} {s t : State} (h : exec i s = .next t) : t.seq.cmd = s.seq.cmd :=
  exec_of_effects (fun u => u.seq.cmd = s.seq.cmd) (fun _ _ he hu => he.cmd_eq.trans hu) h rfl

/-- A command's cycle keeps the core of the invariant. -/
theorem exec_coreInv {i : Instr} {s t : State} (h : exec i s = .next t) (hs : CoreInv s) : CoreInv t := by
  refine (exec_of_effects (fun u => u.cfg = s.cfg ∧ CoreInv u) ?_ h ⟨rfl, hs⟩).2
  rintro u v he ⟨hcfg, hu⟩
  exact ⟨he.cfg_eq.trans hcfg, CommandEffect.keeps_coreInv (hcfg ▸ he) hu⟩

/-- A word that decodes to a command is legal (30_encoding.md R110). -/
theorem legalWord_of_decode {w : Word} {i : Instr} (h : decode w = .ok i) : legalWord w = true := by
  rw [legalWord, h]

/-! ## The host's access, the timers and the interrupts -/

/-- A host access keeps the invariant: CMD takes legal words only, and INTCON no bit of a slot that does not exist
(30_encoding.md R103; 10_state.md R23). -/
theorem inv_hostAccess {s : State} (a : HostAccess) (h : Inv s) : Inv (hostAccess a s) := by
  cases a with
  | idle => exact h
  | read widx => exact h
  | write widx v =>
    obtain ⟨hcore, hseq⟩ := inv_iff.1 h
    obtain ⟨-, -, -, -, -, hif⟩ := hcore.timers
    rw [hostAccess]
    rcases regWrite_cases widx v s with
      ⟨he, -⟩ | ⟨he, -, -⟩ | ⟨he, -, hlegal⟩ | he | he | he | he <;> rw [he]
    · exact h
    · exact h
    · exact inv_iff.2 ⟨⟨hcore.valid, hcore.timers, hcore.rf, hcore.buf, hcore.pins⟩, fun _ => hlegal⟩
    · exact h
    · exact h
    · refine inv_iff.2 ⟨hcore.setIntcon ?_ ?_, hseq⟩
      · exact and_not_eq_zero_iff.2 fun j _ hj => by simp_all
      · rw [and_not_eq_zero_iff] at hif ⊢
        exact fun j h8 hj => hif j h8 (by simp_all)
    · exact h

/-- The timers' cycle keeps the invariant (10_state.md R30). -/
theorem inv_timersStep {s : State} (h : Inv s) : Inv (timersStep s) := by
  obtain ⟨hv, ⟨htt, hrt, hevt, hlen, hie, hif⟩, hr, hb, hs, hp⟩ := h
  have hw : s.cfg.tmrW ≤ 16 := hv.2.1.2.1
  have hrf : RfInv (timersStep s) := by simpa only [RfInv, timersStep_rf, timersStep_cfg] using hr
  have hbuf : BufInv (timersStep s) := by simpa only [BufInv, timersStep_buf, timersStep_cfg] using hb
  have hpins : PinInv (timersStep s) := by
    simpa only [PinInv, timersStep_pinLat, timersStep_pinDir, timersStep_cfg] using hp
  refine ⟨by rwa [timersStep_cfg], ⟨?_, ?_, ?_, ?_, ?_, ?_⟩, hrf, hbuf, by rwa [SeqInv, timersStep_seq], hpins⟩
  · simpa [timersStep_tt] using timerOk_timerStep hw htt
  · simpa [timersStep_rt] using timerOk_timerStep hw hrt
  · intro e he
    rw [timersStep_evt] at he
    obtain ⟨x, hx, rfl⟩ := List.mem_map.1 he
    obtain ⟨hok, hon, hcount⟩ := hevt x hx
    rw [timersStep_cfg]
    exact ⟨timerOk_timerStep hw hok, (timerStep_on ..).trans hon, hcount⟩
  · simpa [timersStep_evt] using hlen
  · simpa [timersStep_intcon] using hie
  · rw [timersStep_intcon, timersStep_cfg]
    refine and_not_eq_zero_iff.2 fun j h8 hj => ?_
    rw [BitVec.getLsbD_or, Bool.or_eq_true, getLsbD_evtFired _ _ _ h8] at hj
    rcases hj with hj | hj
    · exact and_not_eq_zero_iff.1 hif j h8 hj
    · rw [evtMask_getLsbD _ h8]
      have : j < s.evt.length := by
        simp only [Nat.zero_le, true_and, Nat.zero_add, Bool.and_eq_true, decide_eq_true_eq] at hj
        exact hj.1
      exact decide_eq_true (hlen ▸ this)

/-- A source that can be served and is an EVT slot's is that of a slot that exists (60_exceptions.md R290). -/
theorem lt_nEvt_of_mem_sources {c : Config} {k : Nat} (h : IntSource.evt k ∈ sources c) : k < c.nEvt := by
  simpa [sources] using h

/-- Clearing the pending flag of a source that exists keeps the core of the invariant. -/
theorem CoreInv.clearPending {s : State} (h : CoreInv s) {src : IntSource} (hsrc : src ∈ sources s.cfg) :
    CoreInv (clearPending src s) := by
  obtain ⟨-, -, -, -, hie, hif⟩ := h.timers
  cases src with
  | tick | rf => exact h.setIntcon hie hif
  | evt k =>
    exact h.setIntcon hie (setBit_and_not_eq_zero false hif (evtMask_bit (lt_nEvt_of_mem_sources hsrc)))

/-- Every handler keeps the core of the invariant (60_exceptions.md R296 to R298). -/
theorem handlerOf_coreInv {src : IntSource} {s t : State} (h : handlerOf src s = .ok t) (hs : CoreInv s) :
    CoreInv t := by
  cases src with
  | tick => cases h; exact ⟨hs.valid, hs.timers, hs.rf, hs.buf, hs.pins⟩
  | rf =>
    have hrf := rfHandler_rfInv h hs.rfValid hs.rf
    have hbuf := rfHandler_bufInv h hs.buf
    obtain ⟨r, m, st, rfl⟩ := rfHandler_frame h
    exact ⟨hs.valid, hs.timers, hrf, hbuf, hs.pins⟩
  | evt k =>
    cases h
    obtain ⟨htimer, hon, hcount⟩ := hs.slotOk k
    rcases evtHandler_cases k s with ⟨-, he⟩ | ⟨hlt, he⟩ <;> rw [he]
    · have hslot : SlotOk s.cfg { slotAt s k with count := 0 } :=
        ⟨htimer, hon, lt_max_of_lt_left Nat.one_pos⟩
      obtain ⟨hv, ht, hr, hb, hp⟩ := hs.setSlot k hslot
      exact ⟨hv, ht, hr, hb, hp⟩
    · exact hs.setSlot k ⟨htimer, hon, Nat.lt_of_lt_of_le hlt (Nat.le_max_right _ _)⟩

/-- Every handler keeps SEQ (60_exceptions.md R295). -/
theorem handlerOf_seq {src : IntSource} {s t : State} (h : handlerOf src s = .ok t) : t.seq = s.seq := by
  cases src with
  | tick => cases h; rfl
  | rf =>
    obtain ⟨r, m, st, rfl⟩ := rfHandler_frame h
    rfl
  | evt k =>
    cases h
    rcases evtHandler_cases k s with ⟨-, he⟩ | ⟨-, he⟩ <;> rw [he] <;> rfl

/-- INT's dispatch keeps SEQ: what was in progress continues exactly where it was (60_exceptions.md R295). -/
theorem intDispatch_seq {s t : State} (h : intDispatch s = .ok t) : t.seq = s.seq := by
  rcases intDispatch_cases h with rfl | ⟨src, u, -, -, hu, rfl⟩
  · rfl
  · rw [State.setIsrBusy_seq, handlerOf_seq hu, clearPending_frame, State.setIntcon_seq]

/-- INT's dispatch keeps the invariant (60_exceptions.md R295). -/
theorem inv_intDispatch {s t : State} (h : intDispatch s = .ok t) (hs : Inv s) : Inv t := by
  have hseq := intDispatch_seq h
  obtain ⟨hcore, hlegal⟩ := inv_iff.1 hs
  refine inv_iff.2 ⟨?_, by rw [SeqInv, hseq]; exact hlegal⟩
  rcases intDispatch_cases h with rfl | ⟨src, u, -, hready, hu, rfl⟩
  · exact hcore
  · obtain ⟨hv, ht, hr, hb, hp⟩ := handlerOf_coreInv hu (hcore.clearPending (readySource_ready hready).2)
    exact ⟨hv, ht, hr, hb, hp⟩

/-- The cycle up to INT's dispatch keeps the invariant (70_reset_and_hazards.md R330). -/
theorem inv_beforeSeq {s t : State} (h : beforeSeq s = .ok t) (hs : Inv s) : Inv t := by
  have hbegin : Inv (beginCycle (nextInput s) s) := hs
  exact inv_intDispatch h (inv_timersStep (inv_hostAccess _ hbegin))

/-! ## Reset -/

/-- The invariant holds right after reset, whatever the valid parameters (10_state.md R50). -/
theorem inv_resetWith {c : Config} (hc : c.Valid) : Inv (State.resetWith c) := by
  refine ⟨hc, ⟨timerOk_reset c, timerOk_reset c, fun e he => ?_, List.length_replicate, by simp [State.resetWith],
    by simp [State.resetWith]⟩, ?_, ⟨wf_reset c, fun p hp => absurd hp (List.not_mem_nil)⟩,
    fun hb => Bool.noConfusion hb, rfl, by simp [State.resetWith]⟩
  · rw [List.eq_of_mem_replicate he]
    exact ⟨timerOk_reset c, rfl, by decide⟩
  · exact ⟨Nat.zero_le _, Nat.zero_le _, fun hm => absurd rfl hm, Nat.zero_le _, fun hm => RfMode.noConfusion hm,
      fun hm => RfMode.noConfusion hm⟩

end Sys2Proof.Machine

namespace Sys2Proof.Claims

open Sys2Proof.Machine

/-- Settles O58: each part of the cycle keeps the invariant, and the command in progress is a legal word because it
decodes. -/
theorem invKept : Obligations.InvKept := by
  intro s t hs h
  rcases step_cases h with ⟨-, rfl⟩ | ⟨-, s1, h1, ⟨-, rfl⟩ | ⟨-, -, i, u, hi, hu, rfl⟩⟩
  · have hreset : Inv (State.resetWith s.cfg) := inv_resetWith hs.1
    exact hreset
  · have hinv : Inv s1 := inv_beforeSeq h1 hs
    exact hinv
  · obtain ⟨hcore, -⟩ := inv_iff.1 (inv_beforeSeq h1 hs)
    have hcounted : CoreInv (isrCountdown s1) := ⟨hcore.valid, hcore.timers, hcore.rf, hcore.buf, hcore.pins⟩
    obtain ⟨hv, ht, hr, hb, hp⟩ := exec_coreInv hu hcounted
    refine inv_iff.2 ⟨⟨hv, ht, hr, hb, hp⟩, fun _ => ?_⟩
    show legalWord u.seq.cmd = true
    rw [exec_cmd hu]
    exact legalWord_of_decode hi

/-- Settles O57: the invariant of the block at reset, and with SEQ idle no pin is to be an output. -/
theorem invAtReset : Obligations.InvAtReset :=
  ⟨fun _ hc => ⟨inv_resetWith hc, rfl⟩, inv_resetWith (by decide)⟩

end Sys2Proof.Claims
end

section
/-! SUPPORT. The timers over many cycles and all together (10_state.md R30, R31; 60_exceptions.md R291). -/

namespace Sys2Proof.Machine

/-! ## One timer over many cycles (10_state.md R30) -/

/-- The last of `n + 1` cycles of a timer. -/
theorem timerAfter_succ (w n : Nat) (t : Timer) : timerAfter w (n + 1) t = (timerStep w (timerAfter w n t)).1 := by
  induction n generalizing t with
  | zero => rfl
  | succ n ih => rw [timerAfter, ih]; rfl

/-- A timer `n` cycles after its start: the prescaler has run `n` modulo the divisor, the count is the number of
prescaler periods modulo the timer's own period. -/
def startedTimer (ps pr n : Nat) : Timer :=
  { startTimer ps pr with psc := BitVec.ofNat 16 (n % ps), tmr := BitVec.ofNat 16 (n / ps % (pr + 1)) }

/-- A number below 2^16 is the value of the 16-bit word it is stored in. -/
theorem toNat_ofNat_half {n : Nat} (h : n < 65536) : (BitVec.ofNat 16 n).toNat = n := by
  rw [BitVec.toNat_ofNat, Nat.mod_eq_of_lt h]

/-- The next count of a timer whose period has not ended. -/
theorem succ_mod_of_ne {q p : Nat} (h : q % (p + 1) ≠ p) : (q + 1) % (p + 1) = q % (p + 1) + 1 := by
  have hlt : q % (p + 1) < p + 1 := Nat.mod_lt q (Nat.succ_pos p)
  rw [← Nat.mod_add_mod, Nat.mod_eq_of_lt (by omega)]

/-- One cycle of a started timer: its event comes every `ps * (pr + 1)` cycles (10_state.md R30). -/
theorem timerStep_startedTimer {w ps pr : Nat} (hw : w ≤ 16) (hps : 1 ≤ ps) (hps' : ps < 65536) (hpr : pr < 2 ^ w)
    (n : Nat) : timerStep w (startedTimer ps pr n) =
      (startedTimer ps pr (n + 1), decide ((n + 1) % (ps * (pr + 1)) = 0)) := by
  have hle : 2 ^ w ≤ 2 ^ 16 := Nat.pow_le_pow_right (by decide) hw
  obtain ⟨q, r, hr, rfl⟩ : ∃ q r, r < ps ∧ n = ps * q + r :=
    ⟨n / ps, n % ps, Nat.mod_lt _ hps, (Nat.div_add_mod n ps).symm⟩
  have hmod : (ps * q + r) % ps = r := by rw [Nat.mul_add_mod, Nat.mod_eq_of_lt hr]
  have hdiv : (ps * q + r) / ps = q := by rw [Nat.mul_add_div hps, Nat.div_eq_of_lt hr, Nat.add_zero]
  have hq : q % (pr + 1) < pr + 1 := Nat.mod_lt q (Nat.succ_pos pr)
  have hpscNat : (BitVec.ofNat 16 r).toNat = r := toNat_ofNat_half (by omega)
  have hpsNat : (BitVec.ofNat 16 ps).toNat = ps := toNat_ofNat_half hps'
  have htmr : BitVec.ofNat 16 (q % (pr + 1)) = BitVec.ofNat 16 pr ↔ q % (pr + 1) = pr := by
    rw [← BitVec.toNat_inj, toNat_ofNat_half (by omega), toNat_ofNat_half (by omega)]
  simp only [startedTimer, startTimer, hmod, hdiv, timerStep, hpscNat, hpsNat, htmr, if_true]
  by_cases hlast : ps ≤ r + 1
  · have hn : ps * q + r + 1 = ps * (q + 1) := by rw [Nat.mul_succ]; omega
    have hevent : (ps * (q + 1)) % (ps * (pr + 1)) = 0 ↔ q % (pr + 1) = pr := by
      rw [Nat.mul_mod_mul_left, Nat.mul_eq_zero, Nat.succ_mod_succ_eq_zero_iff]
      omega
    rw [if_pos hlast, hn, Nat.mul_mod_right, Nat.mul_div_cancel_left _ hps]
    by_cases hend : q % (pr + 1) = pr
    · rw [if_pos hend, Nat.succ_mod_succ_eq_zero_iff.2 hend, decide_eq_true (hevent.2 hend)]
      rfl
    · rw [if_neg hend, succ_mod_of_ne hend, decide_eq_false (mt hevent.1 hend), toNat_ofNat_half (by omega),
        Nat.mod_eq_of_lt (by omega : q % (pr + 1) + 1 < 2 ^ w)]
      rfl
  · have hmod' : (ps * q + r + 1) % ps = r + 1 := by
      rw [Nat.add_assoc, Nat.mul_add_mod, Nat.mod_eq_of_lt (by omega)]
    have hdiv' : (ps * q + r + 1) / ps = q := by
      rw [Nat.add_assoc, Nat.mul_add_div hps, Nat.div_eq_of_lt (by omega), Nat.add_zero]
    have hnone : (ps * q + r + 1) % (ps * (pr + 1)) ≠ 0 := by
      intro h0
      have := Nat.mod_mul_right_mod (ps * q + r + 1) ps (pr + 1)
      rw [h0, hmod', Nat.zero_mod] at this
      omega
    rw [if_neg hlast, hmod', hdiv', decide_eq_false hnone, BitVec.ofNat_add]
    rfl

/-- Where a started timer is after `n` cycles. -/
theorem timerAfter_startTimer {w ps pr : Nat} (hw : w ≤ 16) (hps : 1 ≤ ps) (hps' : ps < 65536) (hpr : pr < 2 ^ w)
    (n : Nat) : timerAfter w n (startTimer ps pr) = startedTimer ps pr n := by
  induction n with
  | zero => simp [timerAfter, startedTimer, startTimer]
  | succ n ih => rw [timerAfter_succ, ih, timerStep_startedTimer hw hps hps' hpr]

/-! ## All timers in one cycle (10_state.md R30, 60_exceptions.md R291) -/

/-- The timers' cycle, every field it writes. -/
theorem timersStep_eq (s : State) : timersStep s = { s with
    tt := (timerStep s.cfg.tmrW s.tt).1
    rt := (timerStep s.cfg.tmrW s.rt).1
    evt := s.evt.map (fun e => { e with t := (timerStep s.cfg.tmrW e.t).1 })
    status := (timersStep s).status
    intcon := (timersStep s).intcon } := by
  simp only [timersStep, evtEvents, rfEvent, tickEvent, State.setTt, State.setRt, State.setEvt, State.setStatus,
    State.setIntcon]

/-- Two words share a bit exactly where their conjunction is not 0. -/
theorem and_ne_zero_iff {n : Nat} {x y : BitVec n} :
    (x &&& y != 0) = true ↔ ∃ k, k < n ∧ x.getLsbD k = true ∧ y.getLsbD k = true := by
  rw [bne_iff_ne, ne_eq, BitVec.eq_of_getLsbD_eq_iff]
  simp

/-- The EVT timer of a slot has its event in this cycle. -/
theorem getLsbD_evtFired_slotAt (s : State) {k : Nat} (hk : k < 8) :
    (evtFired s.cfg.tmrW s.evt 0).getLsbD k =
      (decide (k < s.evt.length) && (timerStep s.cfg.tmrW (slotAt s k).t).2) := by
  rw [getLsbD_evtFired _ _ _ hk, Nat.sub_zero, slotAt]
  simp

/-- With every timer stopped the timers' cycle changes nothing. -/
theorem timersStep_of_off {s : State} (htt : s.tt.on = false) (hrt : s.rt.on = false)
    (hevt : ∀ e ∈ s.evt, e.t.on = false) : timersStep s = s := by
  have hfired : evtFired s.cfg.tmrW s.evt 0 = 0 := by
    refine BitVec.eq_of_getLsbD_eq fun k hk => ?_
    rw [getLsbD_evtFired_slotAt s hk]
    by_cases hlen : k < s.evt.length
    · have hoff : (slotAt s k).t.on = false := by
        simpa [slotAt, hlen] using hevt _ (List.getElem_mem hlen)
      simp [timerStep_off _ hoff]
    · simp [hlen]
  have hslots : s.evt.map (fun e => { e with t := (timerStep s.cfg.tmrW e.t).1 }) = s.evt := by
    calc s.evt.map (fun e => { e with t := (timerStep s.cfg.tmrW e.t).1 })
      _ = s.evt.map id := List.map_congr_left fun e he => by rw [timerStep_off _ (hevt e he)]; rfl
      _ = s.evt := List.map_id _
  rw [timersStep_eq, timersStep_status, timersStep_intcon, timerStep_off _ htt, timerStep_off _ hrt, hslots, hfired]
  simp

end Sys2Proof.Machine

namespace Sys2Proof.Claims

open Sys2Proof.Machine

/-- Settles O15: by the closed form of a started timer, over the number of cycles. -/
theorem timerPeriod : Obligations.TimerPeriod := by
  intro w ps pr n hw hps hps' hpr
  rw [timerAfter_startTimer hw hps hps' hpr, timerStep_startedTimer hw hps hps' hpr, decide_eq_true_iff]

/-- Settles O16: the timers' cycle field by field, and the EVT slots' pending and lost flags bit by bit. -/
theorem timerEvents : Obligations.TimerEvents := by
  intro s
  refine ⟨?_, fun k hk => ?_, ?_⟩
  · conv_lhs => rw [timersStep_eq s]
    simp only [timersStep_status, timersStep_intcon]
  · rw [timersStep_intcon, BitVec.getLsbD_or, getLsbD_evtFired_slotAt s hk]
  · rw [timersStep_status, Bool.or_eq_true, and_ne_zero_iff]
    refine or_congr_right (exists_congr fun k => and_congr_right fun hk => ?_)
    rw [getLsbD_evtFired_slotAt s hk, Bool.and_eq_true, decide_eq_true_iff]
    tauto

/-- Settles O20: by the two answers of `TimerFit`, the ascending list putting every smaller divisor before the one
found. -/
theorem timerFit : Obligations.TimerFit := by
  intro c C hv hC
  obtain ⟨-, -, hne, hsort, hbounds, -, -⟩ := hv
  rcases timerFit_cases c C with ⟨ps, pr, hf, he⟩ | ⟨hf, he⟩ <;> simp only [he]
  · obtain ⟨hfits, rfl, before, after, hl, hnone⟩ := firstFit_some hf
    have hmem : ps ∈ c.psSet := by simp [hl]
    refine ⟨iff_of_true trivial ⟨ps, hmem, hfits⟩, fun _ => ⟨hmem, hfits.1, hfits.2, rfl, fun x hx hlt => hnone x ?_⟩,
      fun h => Bool.noConfusion h⟩
    rw [hl] at hx hsort
    rcases List.mem_append.1 hx with hx | hx
    · exact hx
    · rcases List.mem_cons.1 hx with rfl | hx
      · exact absurd hlt (Nat.lt_irrefl _)
      · exact absurd ((List.pairwise_cons.1 (List.pairwise_append.1 hsort).2.1).1 x hx) (Nat.lt_asymm hlt)
  · have hnone := firstFit_eq_none.1 hf
    refine ⟨iff_of_false Bool.false_ne_true fun ⟨ps, hmem, hfits⟩ => hnone ps hmem hfits,
      fun h => Bool.noConfusion h, fun _ => ⟨psMax_mem hne, fun _ => le_psMax hsort, fun hle => ?_⟩⟩
    have hpos : 0 < C / psMax c := Nat.div_pos hle (hbounds _ (psMax_mem hne)).1
    exact if_neg (Nat.pos_iff_ne_zero.1 hpos)

end Sys2Proof.Claims
end

section
/-! SUPPORT. The host's registers as they read (10_state.md R22, R23, R32, R38, R41; 20_memory.md R72). -/

namespace Sys2Proof.Machine

/-! ## Registers read as their words (20_memory.md R72) -/

/-- Word `r` of EVT slot `k`. -/
theorem regRead_evt (s : State) {k r : Nat} (hk : k < 8) (hr : r < 8) :
    regRead s (BitVec.ofNat 7 (16 + r + 8 * k)) = evtWord s k r := by
  have hn : (BitVec.ofNat 7 (16 + r + 8 * k)).toNat = 16 + r + 8 * k := by
    rw [BitVec.toNat_ofNat, Nat.mod_eq_of_lt (by omega)]
  simp only [regRead, hn]
  rw [if_neg (by omega), if_pos (by omega), show (16 + r + 8 * k - 16) / 8 = k by omega,
    show (16 + r + 8 * k - 16) % 8 = r by omega]

/-- A pin register shows the pins that exist (00_scope.md R17). -/
theorem and_pinMask_getLsbD (v : BitVec 32) (c : Config) {p : Nat} (hp : p < 32) :
    (v &&& pinMask c).getLsbD p = (decide (p < c.npins) && v.getLsbD p) := by
  rw [BitVec.getLsbD_and, pinMask_getLsbD c hp, Bool.and_comm]

/-- The words of a slot do not show its prescale counter (10_state.md R32). -/
theorem evtWord_congr {s t : State} (hcfg : t.cfg = s.cfg)
    (hslot : ∀ k, ∃ v, slotAt t k = { slotAt s k with t := { (slotAt s k).t with psc := v } }) (k r : Nat) :
    evtWord t k r = evtWord s k r := by
  obtain ⟨v, hv⟩ := hslot k
  simp only [evtWord, hcfg, hv, timerTmrWord, evtCfgWord]

/-- Writing a slot's prescale counter changes no slot but in its prescale counter. -/
theorem slotAt_setSlot_psc (s : State) (k j : Nat) (v : Half) :
    ∃ x, slotAt (setSlot k { slotAt s k with t := { (slotAt s k).t with psc := v } } s) j =
      { slotAt s j with t := { (slotAt s j).t with psc := x } } := by
  by_cases hj : j = k
  · subst hj
    by_cases hlen : j < s.evt.length
    · exact ⟨v, slotAt_setSlot_same _ hlen⟩
    · refine ⟨(slotAt s j).t.psc, ?_⟩
      rw [setSlot, List.set_eq_of_length_le (Nat.le_of_not_lt hlen)]
      rfl
  · exact ⟨(slotAt s j).t.psc, slotAt_setSlot_other _ hj⟩

/-- Only the words of the slots depend on the slots' timers. -/
theorem regRead_congr_evt {s t : State} (h : ∃ l, t = s.setEvt l)
    (hevt : ∀ k r, evtWord t k r = evtWord s k r) (widx : BitVec 7) : regRead t widx = regRead s widx := by
  obtain ⟨l, rfl⟩ := h
  simp only [regRead, hevt]
  rfl

/-! ## STATUS and INTCON bit by bit (10_state.md R22, R23) -/

/-- The bits of a word whose low `m` bits are a field of their own. -/
theorem getLsbD_append_field (m : Nat) {n : Nat} (x : BitVec n) (y : BitVec m) (k : Nat) :
    (x ++ y).getLsbD k = if k < m then y.getLsbD k else x.getLsbD (k - m) := BitVec.getLsbD_append

/-- The bits of a word whose lowest bit is a flag. -/
theorem getLsbD_append_ofBool {n : Nat} (x : BitVec n) (b : Bool) (k : Nat) :
    (x ++ BitVec.ofBool b).getLsbD k = if k = 0 then b else x.getLsbD (k - 1) := by
  rw [getLsbD_append_field]
  cases k <;> simp

/-- An EVT field of INTCON shows the slots that exist (10_state.md R23). -/
theorem and_evtMask_getLsbD (v : BitVec 8) (c : Config) (k : Nat) :
    (v &&& evtMask c).getLsbD k = (v.getLsbD k && decide (k < c.nEvt)) := by
  by_cases hk : k < 8
  · rw [BitVec.getLsbD_and, evtMask_getLsbD c hk]
  · simp [BitVec.getLsbD_of_ge _ _ (Nat.le_of_not_lt hk)]

/-- Every bit of STATUS. -/
theorem statusWord_getLsbD (s : State) (k : Nat) : (statusWord s).getLsbD k =
    match k with
    | 0 => s.seq.busy
    | 1 => s.status.ill
    | 2 => s.status.ovr
    | 3 => s.status.argErr
    | 4 => s.status.manErrLo
    | 5 => s.status.manErrHi
    | 6 => s.status.manSentLo
    | 7 => s.status.manSentHi
    | 8 => s.rf.mode == .msg
    | 9 => s.status.rfClamp
    | 10 => s.status.tickLost
    | 11 => s.status.rfLost
    | 12 => s.status.evtLost
    | 13 => decide (0 < s.isrBusy)
    | _ => false := by
  simp only [statusWord, getLsbD_append_ofBool, BitVec.getLsbD_zero]
  match k with
  | 0 | 1 | 2 | 3 | 4 | 5 | 6 | 7 | 8 | 9 | 10 | 11 | 12 | 13 => rfl
  | k + 14 => rfl

/-- Every bit of INTCON: the field a position lies in gives its bit, and an EVT field ends with the last slot. -/
theorem intconWord_getLsbD (s : State) (hn : s.cfg.nEvt ≤ 8) (k : Nat) : (intconWord s).getLsbD k =
    if k = 0 then s.intcon.gie else if k = 1 then s.intcon.ieTick else if k = 2 then s.intcon.ieRf
    else if 8 ≤ k ∧ k < 8 + s.cfg.nEvt then s.intcon.ieEvt.getLsbD (k - 8)
    else if k = 16 then s.intcon.ifTick else if k = 17 then s.intcon.ifRf
    else if 24 ≤ k ∧ k < 24 + s.cfg.nEvt then s.intcon.ifEvt.getLsbD (k - 24)
    else false := by
  have evtField : ∀ (v : BitVec 8) (lo : Nat), lo ≤ k →
      (v &&& evtMask s.cfg).getLsbD (k - lo) =
        if lo ≤ k ∧ k < lo + s.cfg.nEvt then v.getLsbD (k - lo) else false := by
    intro v lo hlo
    rw [and_evtMask_getLsbD]
    by_cases hk : k < lo + s.cfg.nEvt
    · simp [hlo, hk, show k - lo < s.cfg.nEvt by omega]
    · simp [hk, show ¬k - lo < s.cfg.nEvt by omega]
  simp only [intconWord, getLsbD_append_ofBool, getLsbD_append_field 5, getLsbD_append_field 6,
    getLsbD_append_field 8, BitVec.getLsbD_zero, Nat.sub_sub, Nat.reduceAdd]
  rcases Nat.lt_or_ge k 8 with h8 | h8
  · interval_cases k <;> simp
  · have above : k ≠ 0 ∧ k ≠ 1 ∧ k ≠ 2 ∧ k - 1 ≠ 0 ∧ k - 2 ≠ 0 ∧ ¬k - 3 < 5 := by omega
    rw [evtField _ 8 h8]
    simp only [above, if_false]
    rcases Nat.lt_or_ge k 16 with h16 | h16
    · have inIe : k - 8 < 8 ∧ k ≠ 16 ∧ k ≠ 17 ∧ ¬24 ≤ k := by omega
      simp only [inIe, if_true, if_false, false_and]
    · have notIe : ¬k - 8 < 8 ∧ ¬k < 8 + s.cfg.nEvt := by omega
      simp only [notIe, if_false, and_false]
      rcases Nat.lt_or_ge k 24 with h24 | h24
      · interval_cases k <;> simp
      · have notFlag : k - 16 ≠ 0 ∧ k - 17 ≠ 0 ∧ ¬k - 18 < 6 ∧ k ≠ 16 ∧ k ≠ 17 := by omega
        simp only [notFlag, if_false]
        exact evtField _ 24 h24

/-- A write to INTCON stores GIE and the IE bits and clears the pending flags it names (10_state.md R23). -/
theorem intconWord_writeIntcon (s : State) (v : Word) (hn : s.cfg.nEvt ≤ 8) (k : Nat) :
    (intconWord (writeIntcon v s)).getLsbD k =
      if k ≤ 2 ∨ (8 ≤ k ∧ k < 8 + s.cfg.nEvt) then v.getLsbD k
      else (intconWord s).getLsbD k && !v.getLsbD k := by
  rw [intconWord_getLsbD s hn, intconWord_getLsbD (writeIntcon v s) hn]
  simp only [writeIntcon, State.setIntcon_intcon, State.setIntcon_cfg, and_evtMask_getLsbD]
  by_cases hflag : k ≤ 2
  · interval_cases k <;> rfl
  · have above : k ≠ 0 ∧ k ≠ 1 ∧ k ≠ 2 := by omega
    by_cases hie : 8 ≤ k ∧ k < 8 + s.cfg.nEvt
    · have hin : k - 8 < s.cfg.nEvt ∧ k - 8 < 8 ∧ 8 + (k - 8) = k := by omega
      simp [above, hie, hin]
    · simp only [above, hflag, hie, if_false, or_self]
      by_cases h16 : k = 16
      · simp [h16]
      · by_cases h17 : k = 17
        · simp [h17]
        · simp only [h16, h17, if_false]
          by_cases hif : 24 ≤ k ∧ k < 24 + s.cfg.nEvt
          · have hin : k - 24 < 8 ∧ 24 + (k - 24) = k := by omega
            simp [hif, hin]
          · simp [hif]

end Sys2Proof.Machine

namespace Sys2Proof.Claims

open Sys2Proof.Machine

/-- Settles O6: STATUS bit by bit; a write is the model's `writeStatus`. -/
theorem statusRegister : Obligations.StatusRegister :=
  fun s _ => ⟨statusWord_getLsbD s, rfl⟩

/-- Settles O7: INTCON bit by bit, before and after the write. -/
theorem intconRegister : Obligations.IntconRegister :=
  fun s v hn => ⟨intconWord_getLsbD s hn, intconWord_writeIntcon s v hn, rfl⟩

/-- Settles O9: each index of the map names its register, and no word shows a prescale counter. -/
theorem registerViews : Obligations.RegisterViews := by
  intro s
  refine ⟨⟨rfl, rfl, rfl, rfl⟩, ⟨rfl, rfl, rfl, rfl⟩, ?_, rfl, rfl, fun k hk h8 => ?_, fun p hp => ?_,
    fun widx v k => ⟨rfl, ?_⟩, fun widx v h0 h1 h3 h4 => ?_, fun _ => rfl⟩
  · show rfStatWord s.rf = _
    rw [rfStatWord]
    cases s.rf.mode <;> rfl
  · have hslot : ∀ r, r < 8 → regRead s (BitVec.ofNat 7 (16 + r + 8 * k)) = evtWord s k r :=
      fun r hr => regRead_evt s h8 hr
    refine ⟨(hslot 0 (by decide)).trans (if_pos hk), (hslot 1 (by decide)).trans (if_pos hk),
      (hslot 2 (by decide)).trans (if_pos hk), (hslot 3 (by decide)).trans (if_pos hk),
      (hslot 4 (by decide)).trans (if_pos hk)⟩
  · exact ⟨and_pinMask_getLsbD _ _ hp, and_pinMask_getLsbD _ _ hp, and_pinMask_getLsbD _ _ hp⟩
  · exact regRead_congr_evt ⟨_, rfl⟩ (evtWord_congr rfl fun j => slotAt_setSlot_psc s k j v) widx
  · rw [regWrite, if_neg h0, if_neg h1, if_neg h3, if_neg h4]

end Sys2Proof.Claims
end

section
/-! SUPPORT. The clock cycle, part by part (70_reset_and_hazards.md R320, R330): what each part leaves unchanged, and
how a cycle without reset is put together. -/

namespace Sys2Proof.Machine

/-! ## Reset -/

/-- A cycle with `rst = 1` is the reset cycle (R320). -/
theorem step_reset {s : State} (h : (nextInput s).rst = true) : step s = .next (resetCycle s) := if_pos h

/-- The reset state has the tabled values, whatever the model's cycle counter and inputs (10_state.md R50). -/
theorem resetValues_resetWith (c : Config) (n : Nat) (l : List Input) :
    ResetValues c.nEvt (((State.resetWith c).setCycle n).setInputs l) := by
  have hintcon : intconWord (((State.resetWith c).setCycle n).setInputs l) = 0 := by
    simp [intconWord, State.resetWith]
  have hstatus : statusWord (((State.resetWith c).setCycle n).setInputs l) = 0 :=
    Eq.trans (show _ = statusWord State.reset from rfl) (by decide)
  exact ⟨rfl, rfl, rfl, ⟨rfl, hstatus⟩, ⟨rfl, hintcon⟩, ⟨rfl, rfl, rfl⟩, rfl, rfl, rfl, rfl, rfl, rfl,
    fun _ => rfl, rfl⟩

/-! ## The host's access -/

/-- A host access writes CBARG, STATUS, INTCON, SEQ and the read data at most (20_memory.md R72, R75). -/
theorem hostAccess_frame (a : HostAccess) (s : State) : ∃ q st ic cb rd,
    hostAccess a s = { s with seq := q, status := st, intcon := ic, cbarg := cb, readData := rd } := by
  cases a with
  | idle => exact ⟨_, _, _, _, _, rfl⟩
  | read widx => exact ⟨_, _, _, _, _, rfl⟩
  | write widx v =>
    rw [hostAccess]
    rcases regWrite_cases widx v s with ⟨he, -⟩ | ⟨he, -⟩ | ⟨he, -⟩ | he | he | he | he <;> rw [he] <;>
      exact ⟨_, _, _, _, _, rfl⟩

/-- No host access moves a busy SEQ (30_encoding.md R104). -/
theorem hostAccess_seq_of_busy (a : HostAccess) {s : State} (h : s.seq.busy = true) :
    (hostAccess a s).seq = s.seq := by
  cases a with
  | idle | read widx => rfl
  | write widx v =>
    rw [hostAccess]
    rcases regWrite_cases widx v s with ⟨he, -⟩ | ⟨-, hidle, -⟩ | ⟨-, hidle, -⟩ | he | he | he | he
    · exact (congrArg State.seq he).trans rfl
    · rw [h] at hidle; cases hidle
    · rw [h] at hidle; cases hidle
    all_goals exact (congrArg State.seq he).trans rfl

/-- No register shows what the start of a cycle writes (20_memory.md R72). -/
theorem regRead_beginCycle (inp : Input) (s : State) (widx : BitVec 7) :
    regRead (beginCycle inp s) widx = regRead s widx := by
  rw [beginCycle_eq]
  rfl

/-! ## INT -/

/-- With GIE 0 no source is ready (60_exceptions.md R291). -/
theorem isReady_of_gie {s : State} (h : s.intcon.gie = false) (src : IntSource) : isReady s src = false := by
  cases src <;> simp [isReady, h]

/-- With no handler in service and GIE 0, INT does nothing. -/
theorem intDispatch_of_gie {s : State} (h : s.intcon.gie = false) : intDispatch s = .ok s := by
  have hnone : readySource s = none := List.find?_eq_none.2 fun src _ => by rw [isReady_of_gie h]; decide
  unfold intDispatch
  rw [hnone]
  split <;> rfl

/-! ## A cycle without reset -/

/-- A cycle without reset (R330). -/
theorem step_eq_runCycle {s : State} (h : (nextInput s).rst = false) : step s = runCycle s := by
  rw [step, if_neg (h ▸ Bool.false_ne_true)]

/-- A fault of INT's handler stops the cycle. -/
theorem step_of_error {s : State} {f : Fault} (hrst : (nextInput s).rst = false) (h : beforeSeq s = .error f) :
    step s = .fault f := by
  rw [step_eq_runCycle hrst, runCycle, h]

/-- What follows INT's dispatch. -/
theorem step_of_ok {s s1 : State} (hrst : (nextInput s).rst = false) (h : beforeSeq s = .ok s1) :
    step s = afterInt s.seq.busy s1 := by
  rw [step_eq_runCycle hrst, runCycle, h]

/-- With SEQ idle or held, only `isr_busy` and `pin_q` move (60_exceptions.md R295). -/
theorem afterInt_still {b : Bool} {s : State} (h : b = false ∨ 0 < s.isrBusy) :
    afterInt b s = .next (endCycle (isrCountdown s)) := by
  have hgo : (b && !held s) = false := by
    rcases h with rfl | h
    · rfl
    · simp [held, h]
  rw [afterInt, seqCycle, hgo]
  rfl

/-- With a command in progress and SEQ not held, SEQ runs the command its word decodes to. -/
theorem afterInt_runs {s : State} {i : Instr} (hfree : s.isrBusy = 0) (hi : decode s.seq.cmd = .ok i) :
    afterInt true s = mapNext endCycle (exec i (isrCountdown s)) := by
  have hgo : (true && !held s) = true := by simp [held, hfree]
  have hfetch : fetchCommand (isrCountdown s) = .ok i := hi
  rw [afterInt, seqCycle, hgo, if_pos rfl, hfetch]

/-- A command in progress at the start of the cycle is still there when SEQ steps. -/
theorem beforeSeq_seq_of_busy {s s1 : State} (h : beforeSeq s = .ok s1) (hb : s.seq.busy = true) :
    s1.seq = s.seq := by
  have hbegin : (beginCycle (nextInput s) s).seq.busy = true := hb
  rw [intDispatch_seq h, timersStep_seq, hostAccess_seq_of_busy _ hbegin]
  rfl

/-- The input of the cycle after a command word is placed: no reset and no host access (log 6). -/
theorem nextInput_placeCommand (w : Word) (s : State) :
    (nextInput (placeCommand w s)).rst = false ∧ (nextInput (placeCommand w s)).host = .idle := by
  cases hl : s.inputs <;> simp [nextInput, placeCommand, hl, acceptCommand]

end Sys2Proof.Machine

namespace Sys2Proof.Claims

open Sys2Proof.Machine

/-- Settles O11: the reset cycle and the state after reset are the reset state with other counters. -/
theorem resetCycle : Obligations.ResetCycle :=
  ⟨resetValues_resetWith Config.profileT1 0 [],
    fun s h => ⟨_, step_reset h, resetValues_resetWith s.cfg (s.cycle + 1) s.inputs.tail⟩⟩

/-- Settles O12: with every timer off, GIE 0 and SEQ idle, no part of the cycle but the pads and the read data moves. -/
theorem quiescentAfterReset : Obligations.QuiescentAfterReset := by
  intro c n ins q p r s hrst hwrite
  refine ⟨padLevels s (nextInput s).pins, fun k hk => ?_, ?_⟩
  · rw [padLevels_getLsbD s _ hk]
    have hcfg : s.cfg = c := rfl
    have hdir : s.pinDir = 0#32 := rfl
    rw [hcfg, hdir, BitVec.getLsbD_zero, Bool.false_and, Bool.not_false, Bool.and_true]
  · have hstep : ∀ rd,
        hostAccess (nextInput s).host (beginCycle (nextInput s) s) = (beginCycle (nextInput s) s).setReadData rd →
        step s = .next (endCycle (isrCountdown ((beginCycle (nextInput s) s).setReadData rd))) := by
      intro rd hhost
      have hslots : ∀ e ∈ ((beginCycle (nextInput s) s).setReadData rd).evt, e.t.on = false := fun e he => by
        rw [List.eq_of_mem_replicate he]
        rfl
      have hbefore : beforeSeq s = .ok ((beginCycle (nextInput s) s).setReadData rd) := by
        rw [beforeSeq, hhost, timersStep_of_off rfl rfl hslots, intDispatch_of_gie rfl]
      rw [step_of_ok hrst hbefore, show s.seq.busy = false from rfl, afterInt_still (.inl rfl)]
    cases hhost : (nextInput s).host with
    | idle => exact hstep none (by rw [hhost]; rfl)
    | read widx => exact hstep (some (regRead s widx)) (by rw [hhost]; rfl)
    | write widx v => exact absurd hhost (hwrite widx v)

/-- Settles O13: the parts of the cycle in R330's order. -/
theorem stepRunsTheCommand : Obligations.StepRunsTheCommand := by
  intro s hrst inp a h
  refine ⟨⟨beginCycle_eq inp s, fun p hp => padLevels_getLsbD s inp.pins hp⟩,
    ⟨fun hi => ?_, fun widx hi => ?_, fun widx v hi => ?_⟩, rfl,
    fun _ hgie => intDispatch_of_gie ?_, fun f hf => step_of_error hrst hf, fun s1 h1 => ⟨fun hstill => ?_,
      fun i hb hfree hi => ?_⟩⟩
  · simp only [h, hi, hostAccess]
  · simp only [h, hi, hostAccess, a, regRead_beginCycle]
    rfl
  · simp only [h, hi, hostAccess]
  · rw [timersStep_intcon]
    exact hgie
  · rw [step_of_ok hrst h1, afterInt_still hstill]
    rfl
  · rw [step_of_ok hrst h1, hb, afterInt_runs hfree (by rwa [beforeSeq_seq_of_busy h1 hb])]
    rfl

/-- Settles O14: no source can be served in the cycle after the word is placed, so SEQ steps. -/
theorem placedWordRuns : Obligations.PlacedWordRuns := by
  intro s w i hi q u
  obtain ⟨hrst, hidle⟩ := nextInput_placeCommand w s
  have hseq : u.seq = q.seq := timersStep_seq _
  have hword : s.withFetchWord 32 w.toNat = q := by
    rw [State.withFetchWord, Nat.mod_eq_of_lt w.isLt, BitVec.ofNat_toNat, BitVec.setWidth_eq]
  have hbefore : beforeSeq q = .ok (timersStep (beginCycle (nextInput q) q)) := by
    rw [beforeSeq, hidle]
    refine intDispatch_of_gie ?_
    rw [hostAccess, timersStep_intcon]
    rfl
  refine ⟨by rw [Accepted, hseq]; exact ⟨rfl, rfl, rfl, rfl⟩, by rw [hseq]; rfl, ?_⟩
  rw [hword, step_of_ok hrst hbefore]
  refine afterInt_runs (timersStep_isrBusy _) ?_
  rw [timersStep_seq]
  exact hi

end Sys2Proof.Claims
end

section
/-! SUPPORT. Who can write what: the frame of every effect of a command, and the writers of `tick` and of BUF
(10_state.md R27, R33, R37; 49_common_laws.md R152). -/

namespace Sys2Proof.Machine

/-! ## The frame of a command's effects -/

namespace CommandEffect

variable {c : Config} {i : Instr} {u v : State}

/-- No effect of a command writes the inputs, the parameters, CBARG, the pads or the outputs of INT. -/
theorem fixed (h : CommandEffect c i u v) :
    (v.cfg, v.cycle, v.inputs, v.cbarg, v.pinIn, v.pinQ, v.isrBusy, v.readData, v.callback) =
      (u.cfg, u.cycle, u.inputs, u.cbarg, u.pinIn, u.pinQ, u.isrBusy, u.readData, u.callback) := by
  cases h <;>
    simp [raiseArgErr, millisInitAction, armTickSource, pinDriveLow, pinRelease, manNibblerAction, manDecodeAction,
      setManFlags, rfInitAction, armRfSource, rfArm, setMode, evtReleaseAction, setEvtSource, setSlot]

/-- No effect of a command stores to BUF or writes GIE. -/
theorem buf_gie (h : CommandEffect c i u v) : (v.buf, v.intcon.gie) = (u.buf, u.intcon.gie) := by
  cases h <;>
    simp [raiseArgErr, millisInitAction, armTickSource, pinDriveLow, pinRelease, manNibblerAction, manDecodeAction,
      setManFlags, rfInitAction, armRfSource, rfArm, setMode, evtReleaseAction, setEvtSource, setSlot]

/-- `tick`, the TICK timer and its source are `MILLIS_INIT`'s (10_state.md R27). -/
theorem tickUnit (h : CommandEffect c i u v) (hi : i ≠ .millisInit) :
    (v.tick, v.tt, v.intcon.ifTick, v.intcon.ieTick) = (u.tick, u.tt, u.intcon.ifTick, u.intcon.ieTick) := by
  cases h with
  | millisInit => exact absurd rfl hi
  | _ =>
    simp [raiseArgErr, pinDriveLow, pinRelease, manNibblerAction, manDecodeAction, setManFlags, rfInitAction,
      armRfSource, rfArm, setMode, evtReleaseAction, setEvtSource, setSlot]

/-- The RF timer and its source are `RF_INIT`'s (10_state.md R33). -/
theorem rfTimer (h : CommandEffect c i u v) (hi : ∀ pin baud, i ≠ .rfInit pin baud) :
    (v.rt, v.intcon.ifRf, v.intcon.ieRf) = (u.rt, u.intcon.ifRf, u.intcon.ieRf) := by
  cases h with
  | rfInit pin baud => exact absurd rfl (hi pin baud)
  | _ =>
    simp [raiseArgErr, millisInitAction, armTickSource, pinDriveLow, pinRelease, manNibblerAction, manDecodeAction,
      setManFlags, rfArm, setMode, evtReleaseAction, setEvtSource, setSlot]

/-- A slot and its source are those of the two EVT commands on that slot (44_event_dispatcher.md R270). -/
theorem slot (h : CommandEffect c i u v) {k : Nat} (hbind : ∀ slot w d, i = .evtOnTimer slot w d → slot.toNat ≠ k)
    (hfree : ∀ slot, i = .evtRelease slot → slot.toNat ≠ k) :
    (slotAt v k, v.intcon.ifEvt.getLsbD k, v.intcon.ieEvt.getLsbD k) =
      (slotAt u k, u.intcon.ifEvt.getLsbD k, u.intcon.ieEvt.getLsbD k) := by
  cases h with
  | bindSlot slot w d =>
    have hk := (hbind slot w d rfl).symm
    exact congrArg₂ Prod.mk (slotAt_setSlot_other _ hk)
      (congrArg₂ Prod.mk (getLsbD_setBit_other _ _ hk) (getLsbD_setBit_other _ _ hk))
  | evtRelease slot =>
    have hk := (hfree slot rfl).symm
    exact congrArg₂ Prod.mk (slotAt_setSlot_other _ hk)
      (congrArg₂ Prod.mk (getLsbD_setBit_other _ _ hk) (getLsbD_setBit_other _ _ hk))
  | _ =>
    simp [slotAt, raiseArgErr, millisInitAction, armTickSource, pinDriveLow, pinRelease, manNibblerAction,
      manDecodeAction, setManFlags, rfInitAction, armRfSource, rfArm, setMode]

/-- The receiver's record is the RF commands' (10_state.md R33). -/
theorem rf (h : CommandEffect c i u v) (hinit : ∀ pin baud, i ≠ .rfInit pin baud) (hbegin : i ≠ .rfBegin)
    (hbytes : ∀ m, i ≠ .rfBeginBytes m) (hstop : i ≠ .rfStop) : v.rf = u.rf := by
  cases h with
  | rfInit pin baud => exact absurd rfl (hinit pin baud)
  | rfBegin => exact absurd rfl hbegin
  | rfBeginBytes m => exact absurd rfl (hbytes m)
  | rfStop => exact absurd rfl hstop
  | _ =>
    simp [raiseArgErr, millisInitAction, armTickSource, pinDriveLow, pinRelease, manNibblerAction, manDecodeAction,
      setManFlags, evtReleaseAction, setEvtSource, setSlot]

/-- A pin is that of the command's own operand (41_onewire.md R164). -/
theorem pin (h : CommandEffect c i u v) {p : Nat} (how : ∀ pin, owPin i = some pin → p ≠ pin.toNat)
    (hinit : ∀ pin baud, i = .rfInit pin baud → p ≠ pin.toNat) :
    (v.pinDir.getLsbD p, v.pinLat.getLsbD p) = (u.pinDir.getLsbD p, u.pinLat.getLsbD p) := by
  cases h with
  | driveLow _ pin _ q hi =>
    simp [pinDriveLow, getLsbD_setBit_other _ _ (how pin hi)]
  | release _ pin _ hi =>
    simp [pinRelease, getLsbD_setBit_other _ _ (how pin hi)]
  | rfInit pin baud =>
    simp [rfInitAction, armRfSource, pinRelease, getLsbD_setBit_other _ _ (hinit pin baud rfl)]
  | _ =>
    simp [raiseArgErr, millisInitAction, armTickSource, manNibblerAction, manDecodeAction, setManFlags, rfArm, setMode,
      evtReleaseAction, setEvtSource, setSlot]

/-- STATUS gets no flag but ARGERR, the two decoders of the codec apart (49_common_laws.md R152). -/
theorem status (h : CommandEffect c i u v) (hnib : ∀ b, i ≠ .manNibbler b) (hdec : ∀ a b, i ≠ .manDecode a b) :
    v.status = u.status ∨ v.status = { u.status with argErr := true } := by
  cases h with
  | refused => exact .inr rfl
  | manNibbler b => exact absurd rfl (hnib b)
  | manDecode a b => exact absurd rfl (hdec a b)
  | _ =>
    left
    simp [millisInitAction, armTickSource, pinDriveLow, pinRelease, rfInitAction, armRfSource, rfArm, setMode,
      evtReleaseAction, setEvtSource, setSlot]

/-- `MILLIS_INIT` zeroes `tick`, and no other command writes it. -/
theorem tick (h : CommandEffect c i u v) : v.tick = u.tick ∨ (v.tick = 0 ∧ i = .millisInit) := by
  by_cases hi : i = .millisInit
  · subst hi
    cases h with
    | millisInit => exact .inr ⟨rfl, rfl⟩
    | _ => exact .inl rfl
  · exact .inl (congrArg Prod.fst (h.tickUnit hi))

end CommandEffect

/-- What no effect of a command changes, its cycle does not change. -/
theorem exec_keeps_view {α : Type} (f : State → α) {i : Instr} {s t : State} (h : exec i s = .next t)
    (heff : ∀ u v, CommandEffect s.cfg i u v → f v = f u) : f t = f s :=
  exec_of_effects (fun u => f u = f s) (fun u v he hu => (heff u v he).trans hu) h rfl

/-- A command's cycle stores nothing to BUF (10_state.md R37). -/
theorem exec_buf {i : Instr} {s t : State} (h : exec i s = .next t) : t.buf = s.buf :=
  congrArg Prod.fst (exec_keeps_view (fun u => (u.buf, u.intcon.gie)) h fun _ _ he => he.buf_gie)

/-- A command's cycle keeps `tick`, or zeroes it and is `MILLIS_INIT`'s (10_state.md R27). -/
theorem exec_tick {i : Instr} {s t : State} (h : exec i s = .next t) :
    t.tick = s.tick ∨ (t.tick = 0 ∧ i = .millisInit) := by
  refine exec_of_effects (fun u => u.tick = s.tick ∨ (u.tick = 0 ∧ i = .millisInit)) (fun u v he hu => ?_) h (.inl rfl)
  rcases he.tick with hv | hv
  · rwa [hv]
  · exact .inr hv

/-- A command's cycle raises no flag but ARGERR, the two decoders of the codec apart. -/
theorem exec_status {i : Instr} {s t : State} (h : exec i s = .next t) (hnib : ∀ b, i ≠ .manNibbler b)
    (hdec : ∀ a b, i ≠ .manDecode a b) : t.status = s.status ∨ t.status = { s.status with argErr := true } := by
  refine exec_of_effects (fun u => u.status = s.status ∨ u.status = { s.status with argErr := true })
    (fun u v he hu => ?_) h (.inl rfl)
  rcases he.status hnib hdec with hv | hv <;> rcases hu with hu | hu <;> rw [hu] at hv
  · exact .inl hv
  · exact .inr hv
  · exact .inr hv
  · exact .inr hv

/-! ## The writers of `tick` and of BUF in a cycle -/

/-- INT's dispatch advances `tick` exactly where it serves the TICK source (60_exceptions.md R296). -/
theorem intDispatch_tick {s t : State} (h : intDispatch s = .ok t) :
    t.tick = if s.isrBusy = 0 ∧ isReady s .tick = true then s.tick + 1 else s.tick := by
  by_cases hserve : s.isrBusy = 0 ∧ isReady s .tick = true
  · obtain ⟨hfree, hready⟩ := hserve
    have hsrc : readySource s = some .tick := by rw [readySource, sources, List.find?_cons_of_pos hready]
    rw [intDispatch, if_pos hfree, hsrc] at h
    cases h
    rw [if_pos ⟨hfree, hready⟩]
    rfl
  · rw [if_neg hserve]
    rcases intDispatch_cases h with rfl | ⟨src, u, hfree, hsrc, hu, rfl⟩
    · rfl
    · cases src with
      | tick => exact absurd ⟨hfree, (readySource_ready hsrc).1⟩ hserve
      | rf =>
        obtain ⟨r, m, st, rfl⟩ := rfHandler_frame hu
        rfl
      | evt k =>
        cases hu
        rcases evtHandler_cases k (clearPending (.evt k) s) with ⟨-, he⟩ | ⟨-, he⟩ <;> rw [he] <;> rfl

/-- INT's dispatch changes BUF only where it serves the RF source in mode DATA, by one byte stored at `rf.curByte`
(43_rf433.md R226). -/
theorem intDispatch_buf {s t : State} (h : intDispatch s = .ok t) : t.buf = s.buf ∨
    (s.isrBusy = 0 ∧ readySource s = some .rf ∧ s.rf.mode = .data ∧
      ∃ v, t.buf = cellStore s.buf s.rf.curByte.toNat v) := by
  rcases intDispatch_cases h with rfl | ⟨src, u, hfree, hsrc, hu, rfl⟩
  · exact .inl rfl
  · cases src with
    | tick => cases hu; exact .inl rfl
    | rf =>
      obtain ⟨hstore, hmode⟩ := rfHandler_stores hu
      by_cases hm : s.rf.mode = .data
      · rcases hstore with hbuf | ⟨-, hbuf⟩
        · exact .inl hbuf
        · exact .inr ⟨hfree, hsrc, hm, hbuf⟩
      · exact .inl (hmode hm)
    | evt k =>
      cases hu
      rcases evtHandler_cases k (clearPending (.evt k) s) with ⟨-, he⟩ | ⟨-, he⟩ <;> rw [he] <;> exact .inl rfl

/-- Up to INT's dispatch no part of a cycle writes `tick`, BUF or the receiver's record. -/
theorem beforeInt_frame (s : State) :
    let u := timersStep (hostAccess (nextInput s).host (beginCycle (nextInput s) s))
    u.tick = s.tick ∧ u.buf = s.buf ∧ u.rf = s.rf := by
  obtain ⟨q, st, ic, cb, rd, he⟩ := hostAccess_frame (nextInput s).host (beginCycle (nextInput s) s)
  simp only [timersStep_tick, timersStep_buf, timersStep_rf, he]
  exact ⟨rfl, rfl, rfl⟩

/-- What a cycle without reset does after INT's dispatch: nothing to the state but the counters, or one cycle of the
command in progress. -/
theorem step_after_int {s t : State} (hrst : (nextInput s).rst = false) (h : step s = .next t) :
    ∃ s1, beforeSeq s = .ok s1 ∧ (t = endCycle (isrCountdown s1) ∨
      (s.seq.busy = true ∧ ∃ i u, decode s.seq.cmd = .ok i ∧ exec i (isrCountdown s1) = .next u ∧ t = endCycle u)) := by
  rcases step_cases h with ⟨hreset, -⟩ | ⟨-, s1, h1, ⟨-, rfl⟩ | ⟨hb, -, i, u, hi, hu, rfl⟩⟩
  · rw [hrst] at hreset; cases hreset
  · exact ⟨s1, h1, .inl rfl⟩
  · exact ⟨s1, h1, .inr ⟨hb, i, u, beforeSeq_seq_of_busy h1 hb ▸ hi, hu, rfl⟩⟩

end Sys2Proof.Machine

namespace Sys2Proof.Claims

open Sys2Proof.Machine

/-- Settles O54: each clause is kept by every effect a command can have. -/
theorem commandsFrame : Obligations.CommandsFrame := by
  intro i s t h
  have hfixed := exec_keeps_view (fun u => (u.cfg, u.cycle, u.inputs, u.cbarg, u.pinIn, u.pinQ, u.isrBusy, u.readData,
    u.callback)) h fun _ _ he => he.fixed
  have hgie := exec_keeps_view (fun u => (u.buf, u.intcon.gie)) h fun _ _ he => he.buf_gie
  simp only [Prod.mk.injEq] at hfixed hgie
  refine ⟨hfixed, fun a => congrArg (cellAt · a) hgie.1, exec_cmd h, hgie.2, fun hi => ?_, fun hi => ?_,
    fun k hbind hfree => ?_, fun hinit hbegin hbytes hstop => ?_,
    fun p hp hreset hread hwrite hreadByte hwriteByte hinit => ?_, exec_status h⟩
  · simpa only [Prod.mk.injEq] using
      exec_keeps_view (fun u => (u.tick, u.tt, u.intcon.ifTick, u.intcon.ieTick)) h fun _ _ he => he.tickUnit hi
  · simpa only [Prod.mk.injEq] using
      exec_keeps_view (fun u => (u.rt, u.intcon.ifRf, u.intcon.ieRf)) h fun _ _ he => he.rfTimer hi
  · simpa only [Prod.mk.injEq] using
      exec_keeps_view (fun u => (slotAt u k, u.intcon.ifEvt.getLsbD k, u.intcon.ieEvt.getLsbD k)) h
        fun _ _ he => he.slot hbind hfree
  · exact exec_keeps_view State.rf h fun _ _ he => he.rf hinit hbegin hbytes hstop
  · have named : ∀ {pin : Byte}, p = pin.toNat → pin = BitVec.ofNat 8 p := fun hpin => by
      rw [hpin, BitVec.ofNat_toNat, BitVec.setWidth_eq]
    have how : ∀ pin, owPin i = some pin → p ≠ pin.toNat := by
      intro pin howpin hpin
      have he := named hpin
      cases i <;> cases howpin <;> subst he
      · exact hreset rfl
      · exact hread rfl
      · exact hwrite _ rfl
      · exact hreadByte rfl
      · exact hwriteByte _ rfl
    have hinit' : ∀ pin baud, i = .rfInit pin baud → p ≠ pin.toNat := fun pin baud hi hpin =>
      hinit baud (named hpin ▸ hi)
    simpa only [Prod.mk.injEq] using
      exec_keeps_view (fun u => (u.pinDir.getLsbD p, u.pinLat.getLsbD p)) h fun _ _ he => he.pin how hinit'

/-- Settles O55: up to INT `tick` is kept, INT advances it where it serves TICK, and of the commands only
`MILLIS_INIT` writes it. -/
theorem tickWriters : Obligations.TickWriters := by
  intro s t hrst h u ticked
  obtain ⟨s1, h1, ht⟩ := step_after_int hrst h
  have htick : s1.tick = ticked := by
    rw [intDispatch_tick h1, (beforeInt_frame s).1]
  rcases ht with rfl | ⟨hb, i, v, hi, hv, rfl⟩
  · exact .inl htick
  · rcases exec_tick hv with hkeep | ⟨hzero, rfl⟩
    · exact .inl (hkeep.trans htick)
    · exact .inr ⟨hzero, hb, hi⟩

/-- Settles O56: of a cycle's parts only INT's dispatch writes BUF, and a store leaves every other byte and removes
none. -/
theorem bufWriters : Obligations.BufWriters := by
  intro s t _ hrst h u
  obtain ⟨s1, h1, ht⟩ := step_after_int hrst h
  obtain ⟨-, hbuf, hrf⟩ := beforeInt_frame s
  have htbuf : t.buf = s1.buf := by
    rcases ht with rfl | ⟨-, i, v, -, hv, rfl⟩
    · rfl
    · have hvbuf : v.buf = (isrCountdown s1).buf := exec_buf hv
      exact hvbuf
  have hbyte : ∀ a, bufByte t a = cellAt s1.buf a := fun a => congrArg (cellAt · a) htbuf
  rcases intDispatch_buf h1 with hkeep | ⟨hfree, hsrc, hmode, v, hstore⟩
  · have hsame : ∀ a, bufByte t a = bufByte s a := fun a => by rw [hbyte, hkeep, hbuf]; rfl
    exact ⟨fun a hne => absurd (hsame a) hne, fun a hne => by rwa [hsame]⟩
  · rw [hrf] at hmode
    rw [hbuf, hrf] at hstore
    have hother : ∀ a, a ≠ s.rf.curByte.toNat → bufByte t a = bufByte s a := fun a ha => by
      rw [hbyte, hstore, cellAt_cellStore_other _ _ ha]
      rfl
    refine ⟨fun a hne => ⟨hfree, hsrc, hmode, ?_⟩, fun a hne => ?_⟩
    · by_contra ha
      exact hne (hother a ha)
    · by_cases ha : a = s.rf.curByte.toNat
      · rw [hbyte, hstore, ha, cellAt_cellStore_same]
        exact Option.some_ne_none v
      · rwa [hother a ha]

end Sys2Proof.Claims
end

section
/-! SUPPORT. The phases of a command: what the cycle that enters a phase answers, whether the command was just accepted
or the phase before is over (10_state.md R25). -/

namespace Sys2Proof.Machine

/-! ## Entering a phase -/

/-- The state in which phase `k` is entered, before its action. -/
def atPhase (s : State) (k : Nat) : State :=
  s.setSeq { s.seq with fresh := false, phase := BitVec.ofNat 32 k, cnt := 0 }

/-- The entry of phase `k` of a program, and of the phases it falls through to. -/
def enterAt (P : MicroProgram) (k : Nat) (s : State) : Except Fault State := enterPhases P (P.len - k) (atPhase s k)

/-- The state in which phase `k` has just been entered with a dwell of `d` cycles. -/
def enteredAt (s : State) (k d : Nat) : State := s.setSeq (inPhase s.seq k d)

/-- The first cycle of an accepted command enters its phase 0 (30_encoding.md R103). -/
theorem exec_accepted {i : Instr} {s : State} {P : MicroProgram} (hP : programOf s.cfg i = P) (h : Accepted s) :
    exec i s = toOut (enterAt P 0 s) := by
  have hentry : s.setSeq { s.seq with fresh := false } = atPhase s 0 := by
    obtain ⟨-, -, hphase, hcnt⟩ := h
    rw [atPhase, ← hcnt, show BitVec.ofNat 32 0 = s.seq.phase from hphase.symm]
  rw [exec_eq_runProgram, hP, runProgram, seqStep_accepted h, hentry]
  rfl

/-- The cycle after phase `k`'s dwell enters phase `k + 1`. -/
theorem exec_phaseOver {i : Instr} {s : State} {P : MicroProgram} {k : Nat} (hP : programOf s.cfg i = P)
    (h : PhaseOver s k) (hk : k + 1 < 2 ^ 32) : exec i s = toOut (enterAt P (k + 1) s) := by
  have hentry : s.setSeq { s.seq with phase := BitVec.ofNat 32 (k + 1) } = atPhase s (k + 1) := by
    obtain ⟨-, hfresh, -, hcnt⟩ := h
    rw [atPhase, ← hcnt, ← hfresh]
  rw [exec_eq_runProgram, hP, runProgram, seqStep_phaseOver h hk, hentry]
  rfl

/-- What phase `k` of a program does: its action turns `s` into `t`; with a dwell of 0 the next phase is entered in the
same cycle, else this cycle is the first of `d`. -/
def PhaseDoes (P : MicroProgram) (k d : Nat) (s t : State) : Prop :=
  enterAt P k s = if d = 0 then enterAt P (k + 1) t else .ok (enteredAt t k d)

/-- A phase of a program, from its action and its dwell. -/
theorem phaseDoes {P : MicroProgram} {k d : Nat} {s t : State} (hk : k < P.len) (hk' : k < 2 ^ 32)
    (hact : P.action k (atPhase s k) = .ok (atPhase t k)) (hd : P.dwell k (atPhase t k) = d) :
    PhaseDoes P k d s t := by
  subst hd
  obtain ⟨r, hr⟩ : ∃ r, P.len - k = r + 1 := ⟨P.len - k - 1, by omega⟩
  unfold PhaseDoes
  split
  · rename_i h0
    have hnext : (atPhase t k).setSeq { (atPhase t k).seq with cnt := 0, phase := (atPhase t k).seq.phase + 1 } =
        atPhase t (k + 1) := by
      have hphase : BitVec.ofNat 32 k + 1 = BitVec.ofNat 32 (k + 1) := (BitVec.ofNat_add k 1).symm
      simp only [atPhase, State.setSeq, hphase]
    rw [enterAt, hr, enterPhases_fall rfl hk' hact h0, hnext, enterAt, show P.len - (k + 1) = r by omega]
  · rename_i hpos
    rw [enterAt, hr, enterPhases_stop rfl hk' hact (Nat.pos_of_ne_zero hpos)]
    rfl

namespace PhaseDoes

variable {P : MicroProgram} {k d : Nat} {s t : State}

/-- With a positive dwell the cycle is the first one of the dwell. -/
theorem stop (h : PhaseDoes P k d s t) (hd : 0 < d) : enterAt P k s = .ok (enteredAt t k d) :=
  h.trans (if_neg (Nat.pos_iff_ne_zero.1 hd))

/-- With dwell 0 the next phase is entered in the same cycle. -/
theorem fall (h : PhaseDoes P k d s t) (hd : d = 0) : enterAt P k s = enterAt P (k + 1) t :=
  h.trans (if_pos hd)

end PhaseDoes

/-- After the last phase the command completes with its result (10_state.md R25a). -/
theorem enterAt_done {P : MicroProgram} {k : Nat} {s : State} {r : Word} (hk : P.len = k)
    (hfin : P.finish (atPhase s k) = (atPhase s k).setResult r) :
    enterAt P k s = .ok { s with result := r, seq := completed s.seq k } := by
  rw [enterAt, hk, Nat.sub_self, enterPhases_done, completeCommand, hfin]
  rfl

/-! ## The phases of the delays (40_tick_delay.md R141, R142) -/

section
variable (c : Config) (n : Half) (s : State)

/-- The one wait of `DELAYUS`. -/
theorem delayUs_phase : PhaseDoes (delayUsProgram c n) 0 (cyc c n.toNat) s s :=
  phaseDoes Nat.one_pos (by decide) rfl rfl

/-- `DELAYUS` completes with the result 0. -/
theorem delayUs_done : enterAt (delayUsProgram c n) 1 s = .ok { s with result := 0, seq := completed s.seq 1 } :=
  enterAt_done rfl rfl

/-- The overhead of the `k`-th millisecond. -/
theorem delayMs_even {k : Nat} (hk : k < n.toNat) : PhaseDoes (delayMsProgram c n) (2 * k) c.dlyMsOvh s s :=
  have hlt : 2 * k < 2 * n.toNat := by omega
  phaseDoes hlt (by omega) rfl (if_pos (Nat.mul_mod_right 2 k))

/-- The wait of the `k`-th millisecond. -/
theorem delayMs_odd {k : Nat} (hk : k < n.toNat) : PhaseDoes (delayMsProgram c n) (2 * k + 1) (cyc c 1000) s s :=
  have hlt : 2 * k + 1 < 2 * n.toNat := by omega
  phaseDoes hlt (by omega) rfl (if_neg (by omega))

/-- `DELAYMS` completes with the result 0. -/
theorem delayMs_done : enterAt (delayMsProgram c n) (2 * n.toNat) s =
    .ok { s with result := 0, seq := completed s.seq (2 * n.toNat) } :=
  enterAt_done rfl rfl

end

/-! ## The phases of the one-wire commands (41_onewire.md R165 to R172) -/

/-- A one-wire command on a pin that exists runs its own program (41_onewire.md R163). -/
theorem onPin_usable {c : Config} {pin : Byte} (h : pinUsable c pin = true) (P : MicroProgram) : onPin c pin P = P :=
  if_pos h

section
variable (c : Config) (p : Nat) (s : State)

/-! ### `OW_RESET` (R165): a wait, the pin low, the pin released, the sample of the presence bit -/

theorem owReset_wait : PhaseDoes (owResetProgram c p) 0 (cyc c c.timeG) s s :=
  phaseDoes (by decide : 0 < 4) (by decide) rfl rfl

theorem owReset_low : PhaseDoes (owResetProgram c p) 1 (cyc c c.timeH) s (pinDriveLow p s) :=
  phaseDoes (by decide : 1 < 4) (by decide) rfl rfl

theorem owReset_release : PhaseDoes (owResetProgram c p) 2 (cyc c c.timeI) s (pinRelease p s) :=
  phaseDoes (by decide : 2 < 4) (by decide) rfl rfl

theorem owReset_sample :
    PhaseDoes (owResetProgram c p) 3 (cyc c c.timeJ) s (setAcc (bitByte (pinSample p s)) s) :=
  phaseDoes (by decide : 3 < 4) (by decide) rfl rfl

theorem owReset_done : enterAt (owResetProgram c p) 4 s =
    .ok { s with result := accBit s, seq := completed s.seq 4 } :=
  enterAt_done rfl rfl

/-! ### `OW_WRITEBIT` and `OW_READBIT` (R166, R167): the pin low, the pin released, and for a read the sample -/

theorem owWriteBit_low (b : Bool) :
    PhaseDoes (owWriteBitProgram c p b) 0 (writeLow c b) s (pinDriveLow p s) :=
  phaseDoes Nat.two_pos (by decide) rfl rfl

theorem owWriteBit_rest (b : Bool) :
    PhaseDoes (owWriteBitProgram c p b) 1 (writeRest c b) s (pinRelease p s) :=
  phaseDoes Nat.one_lt_two (by decide) rfl rfl

theorem owWriteBit_done (b : Bool) : enterAt (owWriteBitProgram c p b) 2 s =
    .ok { s with result := 0, seq := completed s.seq 2 } :=
  enterAt_done rfl rfl

theorem owReadBit_low : PhaseDoes (owReadBitProgram c p) 0 (cyc c c.timeA) s (pinDriveLow p s) :=
  phaseDoes (by decide : 0 < 3) (by decide) rfl rfl

theorem owReadBit_release : PhaseDoes (owReadBitProgram c p) 1 (cyc c c.timeE) s (pinRelease p s) :=
  phaseDoes (by decide : 1 < 3) (by decide) rfl rfl

theorem owReadBit_sample :
    PhaseDoes (owReadBitProgram c p) 2 (cyc c c.timeF) s (setAcc (bitByte (pinSample p s)) s) :=
  phaseDoes (by decide : 2 < 3) (by decide) rfl rfl

theorem owReadBit_done : enterAt (owReadBitProgram c p) 3 s =
    .ok { s with result := accBit s, seq := completed s.seq 3 } :=
  enterAt_done rfl rfl

/-! ### `OW_WRITEBYTE` (R170): slot `i` sends the bit under the mask in the phases `3i`, `3i + 1`, `3i + 2` -/

/-- The low time of a slot, by the bit sent (R166). -/
theorem writeLow_ne_zero (x : Byte) :
    writeLow c (x != 0) = if x ≠ 0 then cyc c c.timeA else cyc c c.timeC := by
  simp only [writeLow, bne_iff_ne]

/-- The rest of a slot, by the bit sent (R166). -/
theorem writeRest_ne_zero (x : Byte) :
    writeRest c (x != 0) = if x ≠ 0 then cyc c c.timeB else cyc c c.timeD := by
  simp only [writeRest, bne_iff_ne]

variable (v : Byte) {i : Nat}

theorem owWriteByte_low (hi : i < 8) :
    PhaseDoes (owWriteByteProgram c p v) (3 * i) (writeLow c (slotBit v (nextMask i s))) s
      (pinDriveLow p (nextMask i s)) := by
  have hmod : 3 * i % 3 = 0 := Nat.mul_mod_right 3 i
  have hdiv : 3 * i / 3 = i := Nat.mul_div_cancel_left i (by decide)
  have hlt : 3 * i < 24 := by omega
  refine phaseDoes hlt (by omega) ?_ ?_
  · simp only [owWriteByteProgram, hmod, hdiv, if_true]
    rfl
  · simp only [owWriteByteProgram, hmod, if_true]
    rfl

theorem owWriteByte_rest (hi : i < 8) :
    PhaseDoes (owWriteByteProgram c p v) (3 * i + 1) (writeRest c (slotBit v s)) s (pinRelease p s) := by
  have hmod : (3 * i + 1) % 3 = 1 := by omega
  have hlt : 3 * i + 1 < 24 := by omega
  refine phaseDoes hlt (by omega) ?_ ?_
  · simp only [owWriteByteProgram, hmod, if_true]
    rfl
  · simp only [owWriteByteProgram, hmod, if_true]
    rfl

theorem owWriteByte_gap (hi : i < 8) :
    PhaseDoes (owWriteByteProgram c p v) (3 * i + 2) (slotGap c i) s s := by
  have hmod : (3 * i + 2) % 3 = 2 := by omega
  have hdiv : (3 * i + 2) / 3 = i := by omega
  have hlt : 3 * i + 2 < 24 := by omega
  refine phaseDoes hlt (by omega) ?_ ?_
  · simp only [owWriteByteProgram, hmod]
    rfl
  · simp only [owWriteByteProgram, hmod, hdiv]
    rfl

theorem owWriteByte_done : enterAt (owWriteByteProgram c p v) 24 s =
    .ok { s with result := 0, seq := completed s.seq 24 } :=
  enterAt_done rfl rfl

/-! ### `OW_READBYTE` (R172): slot `i` samples a bit under the mask in the phases `4i` to `4i + 3` -/

theorem owReadByte_low (hi : i < 8) :
    PhaseDoes (owReadByteProgram c p) (4 * i) (cyc c c.timeA) s (pinDriveLow p (startReadSlot i s)) := by
  have hmod : 4 * i % 4 = 0 := Nat.mul_mod_right 4 i
  have hdiv : 4 * i / 4 = i := Nat.mul_div_cancel_left i (by decide)
  have hlt : 4 * i < 32 := by omega
  refine phaseDoes hlt (by omega) ?_ ?_
  · simp only [owReadByteProgram, hmod, hdiv, if_true]
    unfold startReadSlot
    split <;> rfl
  · simp only [owReadByteProgram, hmod, if_true]

theorem owReadByte_release (hi : i < 8) :
    PhaseDoes (owReadByteProgram c p) (4 * i + 1) (cyc c c.timeE) s (pinRelease p s) := by
  have hmod : (4 * i + 1) % 4 = 1 := by omega
  have hlt : 4 * i + 1 < 32 := by omega
  refine phaseDoes hlt (by omega) ?_ ?_
  · simp only [owReadByteProgram, hmod, if_true]
    rfl
  · simp only [owReadByteProgram, hmod, if_true]
    rfl

theorem owReadByte_sample (hi : i < 8) :
    PhaseDoes (owReadByteProgram c p) (4 * i + 2) (cyc c c.timeF) s (sampleIntoAcc p s) := by
  have hmod : (4 * i + 2) % 4 = 2 := by omega
  have hlt : 4 * i + 2 < 32 := by omega
  refine phaseDoes hlt (by omega) ?_ ?_
  · simp only [owReadByteProgram, hmod]
    show Except.ok (sampleIntoAcc p (atPhase s (4 * i + 2))) = _
    unfold sampleIntoAcc
    rw [apply_ite (atPhase · (4 * i + 2))]
    rfl
  · simp only [owReadByteProgram, hmod]
    rfl

theorem owReadByte_gap (hi : i < 8) : PhaseDoes (owReadByteProgram c p) (4 * i + 3) (slotGap c i) s s := by
  have hmod : (4 * i + 3) % 4 = 3 := by omega
  have hdiv : (4 * i + 3) / 4 = i := by omega
  have hlt : 4 * i + 3 < 32 := by omega
  refine phaseDoes hlt (by omega) ?_ ?_
  · simp only [owReadByteProgram, hmod]
    rfl
  · simp only [owReadByteProgram, hmod, hdiv]
    rfl

theorem owReadByte_done : enterAt (owReadByteProgram c p) 32 s =
    .ok { s with result := s.seq.acc.setWidth 32, seq := completed s.seq 32 } :=
  enterAt_done rfl rfl

end

/-- No gap follows the last slot of a byte operation (R170, R172). -/
theorem slotGap_last (c : Config) : slotGap c 7 = 0 := rfl

/-- The gap after every other slot of a byte operation (R170, R172). -/
theorem slotGap_of_lt (c : Config) {i : Nat} (hi : i < 7) : slotGap c i = c.owGapCyc := if_pos hi

end Sys2Proof.Machine

namespace Sys2Proof.Claims

open Sys2Proof.Machine

/-- Settles O24: an even phase of `DELAYMS` waits `DLY_MS_OVH`, an odd one `cyc(1000)`; a wait of 0 falls through. -/
theorem delayCycles : Obligations.DelayCycles := by
  intro s n
  have hn : n.toNat < 65536 := n.isLt
  have hpos : n ≠ 0 → 0 < n.toNat := fun h => Nat.pos_of_ne_zero fun h0 => h (BitVec.eq_of_toNat_eq h0)
  have hus : programOf s.cfg (.delayUs n) = delayUsProgram s.cfg n := rfl
  have hms : programOf s.cfg (.delayMs n) = delayMsProgram s.cfg n := rfl
  refine ⟨fun i hb hf hc => exec_dwell i hb hf hc, fun h h0 => ?_, fun h hd => ?_, fun h => ?_, fun h h0 => ?_,
    fun h hne hd => ?_, fun h hne h0 hd => ?_, fun k hk h hd => ?_, fun k hk h hd => ?_, fun k hk h h0 hd => ?_,
    fun k hk h => ?_⟩
  · rw [exec_accepted hus h, (delayUs_phase s.cfg n s).fall h0, delayUs_done]
    rfl
  · rw [exec_accepted hus h, (delayUs_phase s.cfg n s).stop hd]
    rfl
  · rw [exec_phaseOver hus h (by decide), delayUs_done]
    rfl
  · subst h0
    rw [exec_accepted hms h]
    exact congrArg toOut (delayMs_done s.cfg 0 s)
  · rw [exec_accepted hms h, (delayMs_even s.cfg n s (hpos hne)).stop hd]
    rfl
  · rw [exec_accepted hms h, (delayMs_even s.cfg n s (hpos hne)).fall h0, (delayMs_odd s.cfg n s (hpos hne)).stop hd]
    rfl
  · rw [exec_phaseOver hms h (by omega), (delayMs_odd s.cfg n s hk).stop hd]
    rfl
  · rw [exec_phaseOver hms h (by omega), show 2 * k + 1 + 1 = 2 * (k + 1) from rfl,
      (delayMs_even s.cfg n s hk).stop hd]
    rfl
  · rw [exec_phaseOver hms h (by omega), show 2 * k + 1 + 1 = 2 * (k + 1) from rfl,
      (delayMs_even s.cfg n s hk).fall h0, (delayMs_odd s.cfg n s hk).stop hd]
    rfl
  · rw [exec_phaseOver hms h (by omega), show 2 * k + 1 + 1 = 2 * n.toNat by omega, delayMs_done]
    rfl

/-- Settles O28: the four phases of `OW_RESET`, each with its action and its dwell. -/
theorem owResetCycles : Obligations.OwResetCycles := by
  intro s pin hpin c p
  have hP : programOf s.cfg (.owReset pin) = owResetProgram c p := onPin_usable hpin _
  refine ⟨fun h hd => ?_, fun h h0 hd => ?_, fun h hd => ?_, fun h hd => ?_, fun h hd => ?_, fun h => ?_⟩
  · rw [exec_accepted hP h, (owReset_wait c p s).stop hd]
    rfl
  · rw [exec_accepted hP h, (owReset_wait c p s).fall h0, (owReset_low c p s).stop hd]
    rfl
  · rw [exec_phaseOver hP h (by decide), (owReset_low c p s).stop hd]
    rfl
  · rw [exec_phaseOver hP h (by decide), (owReset_release c p s).stop hd]
    rfl
  · rw [exec_phaseOver hP h (by decide), (owReset_sample c p s).stop hd]
    rfl
  · rw [exec_phaseOver hP h (by decide), owReset_done]
    rfl

/-- Settles O29: the phases of the two bit commands. -/
theorem owBitCycles : Obligations.OwBitCycles := by
  intro s pin b hpin c p low rest
  have hW : programOf s.cfg (.owWriteBit pin b) = owWriteBitProgram c p (b == 1) := onPin_usable hpin _
  have hR : programOf s.cfg (.owReadBit pin) = owReadBitProgram c p := onPin_usable hpin _
  have hlow : writeLow c (b == 1) = low := by simp only [low, writeLow, beq_iff_eq]
  have hrest : writeRest c (b == 1) = rest := by simp only [rest, writeRest, beq_iff_eq]
  refine ⟨fun h hd => ?_, fun h hd => ?_, fun h => ?_, fun h hd => ?_, fun h hd => ?_, fun h hd => ?_, fun h => ?_⟩
  · rw [exec_accepted hW h, (owWriteBit_low c p s _).stop (hlow ▸ hd), hlow]
    rfl
  · rw [exec_phaseOver hW h (by decide), (owWriteBit_rest c p s _).stop (hrest ▸ hd), hrest]
    rfl
  · rw [exec_phaseOver hW h (by decide), owWriteBit_done]
    rfl
  · rw [exec_accepted hR h, (owReadBit_low c p s).stop hd]
    rfl
  · rw [exec_phaseOver hR h (by decide), (owReadBit_release c p s).stop hd]
    rfl
  · rw [exec_phaseOver hR h (by decide), (owReadBit_sample c p s).stop hd]
    rfl
  · rw [exec_phaseOver hR h (by decide), owReadBit_done]
    rfl

/-- Settles O30: slot `i` of `OW_WRITEBYTE` is its phases `3i` to `3i + 2`; a gap of 0 falls through to the next. -/
theorem owWriteByteCycles : Obligations.OwWriteByteCycles := by
  intro s pin v hpin c p low rest slot
  have hP : programOf s.cfg (.owWriteByte pin v) = owWriteByteProgram c p v := onPin_usable hpin _
  have hrest : writeRest c (slotBit v s) = rest := writeRest_ne_zero c _
  have nextSlot : ∀ i, i < 7 → 0 < low (s.seq.mask <<< 1) →
      enterAt (owWriteByteProgram c p v) (3 * i + 3) s = .ok (slot (3 * i + 3) (s.seq.mask <<< 1)) := by
    intro i hi hd
    have hmask : nextMask (i + 1) s = setMask (s.seq.mask <<< 1) s := rfl
    have hlow : writeLow c (slotBit v (nextMask (i + 1) s)) = low (s.seq.mask <<< 1) := writeLow_ne_zero c _
    have hphase := owWriteByte_low c p s v (by omega : i + 1 < 8)
    rw [hlow, hmask] at hphase
    exact hphase.stop hd
  refine ⟨fun h hd => ?_, fun i hi h hd => ?_, fun i hi h hd => ?_, fun i hi h h0 hd => ?_, fun i hi h hd => ?_,
    fun h => ?_⟩
  · have hlow : writeLow c (slotBit v (nextMask 0 s)) = low 1 := writeLow_ne_zero c _
    have hmask : nextMask 0 s = setMask 1 s := rfl
    have hphase := owWriteByte_low c p s v (by decide : 0 < 8)
    rw [hlow, hmask, Nat.mul_zero] at hphase
    rw [exec_accepted hP h, hphase.stop hd]
    rfl
  · rw [exec_phaseOver hP h (by omega), (owWriteByte_rest c p s v hi).stop (hrest ▸ hd), hrest]
    rfl
  · have hgap := owWriteByte_gap c p s v (by omega : i < 8)
    rw [slotGap_of_lt c hi] at hgap
    rw [exec_phaseOver hP h (by omega), hgap.stop hd]
    rfl
  · rw [exec_phaseOver hP h (by omega),
      (owWriteByte_gap c p s v (by omega : i < 8)).fall ((slotGap_of_lt c hi).trans h0), nextSlot i hi hd]
    rfl
  · rw [exec_phaseOver hP h (by omega), nextSlot i hi hd]
    rfl
  · rw [exec_phaseOver hP h (by decide), (owWriteByte_gap c p s v (by decide : 7 < 8)).fall (slotGap_last c),
      owWriteByte_done]
    rfl

/-- Settles O31: slot `i` of `OW_READBYTE` is its phases `4i` to `4i + 3`; a gap of 0 falls through to the next slot. -/
theorem owReadByteCycles : Obligations.OwReadByteCycles := by
  intro s pin hpin c p slot
  have hP : programOf s.cfg (.owReadByte pin) = owReadByteProgram c p := onPin_usable hpin _
  have nextSlot : ∀ i, i < 7 → 0 < cyc c c.timeA →
      enterAt (owReadByteProgram c p) (4 * i + 4) s = .ok (slot (4 * i + 4) (s.seq.mask <<< 1) s.seq.acc) :=
    fun i hi hd => (owReadByte_low c p s (by omega : i + 1 < 8)).stop hd
  refine ⟨fun h hd => ?_, fun i hi h hd => ?_, fun i hi h hd => ?_, fun i hi h hd => ?_, fun i hi h h0 hd => ?_,
    fun i hi h hd => ?_, fun h => ?_⟩
  · have hstart : startReadSlot 0 s = setAcc 0 (setMask 1 s) := rfl
    have hphase := owReadByte_low c p s (by decide : 0 < 8)
    rw [hstart, Nat.mul_zero] at hphase
    rw [exec_accepted hP h, hphase.stop hd]
    simp only [slot, toOut, enteredAt, pinDriveLow, setAcc, setMask, State.setPinDir, State.setPinLat, State.setSeq,
      inPhase]
  · rw [exec_phaseOver hP h (by omega), (owReadByte_release c p s hi).stop hd]
    rfl
  · have hsample : sampleIntoAcc p s =
        setAcc (if s.pinIn.getLsbD p then s.seq.acc ||| s.seq.mask else s.seq.acc) s := by
      unfold sampleIntoAcc pinSample
      split <;> rfl
    rw [exec_phaseOver hP h (by omega), (owReadByte_sample c p s hi).stop hd, hsample]
    rfl
  · have hgap := owReadByte_gap c p s (by omega : i < 8)
    rw [slotGap_of_lt c hi] at hgap
    rw [exec_phaseOver hP h (by omega), hgap.stop hd]
    rfl
  · rw [exec_phaseOver hP h (by omega),
      (owReadByte_gap c p s (by omega : i < 8)).fall ((slotGap_of_lt c hi).trans h0), nextSlot i hi hd]
    rfl
  · rw [exec_phaseOver hP h (by omega), nextSlot i hi hd]
    rfl
  · rw [exec_phaseOver hP h (by decide), (owReadByte_gap c p s (by decide : 7 < 8)).fall (slotGap_last c),
      owReadByte_done]
    rfl

end Sys2Proof.Claims
end

section
/-! SUPPORT. A command over many cycles, none of them held: where each phase begins and what every cycle of its dwell
leaves (41_onewire.md R177; 10_state.md R25). -/

namespace Sys2Proof.Machine

/-! ## The dwells -/

/-- Every dwell of the one-wire commands and of the delays fits the countdown (40_tick_delay.md R140, R144). -/
theorem cyc_lt {c : Config} (h : c.DwellsFit) {n : Nat} (hn : n ≤ 65535) : cyc c n < 2 ^ 32 := by
  have hmul : n * cycPerUs c ≤ 65535 * cycPerUs c := Nat.mul_le_mul_right _ hn
  have hfit : c.dlyUsOvh + 65535 * cycPerUs c < 2 ^ 32 := h.1
  unfold cyc
  omega

/-- The countdown by one. -/
theorem ofNat_succ_sub_one (n : Nat) : BitVec.ofNat 32 (n + 1) - 1 = BitVec.ofNat 32 n := by
  rw [BitVec.ofNat_add]
  exact BitVec.add_sub_cancel _ _

/-! ## From phase to phase (R177) -/

/-- In the cycle at offset `o` the command enters phase `k` in the state `x`, the pads at that cycle's levels. -/
def EntersAt (i : Instr) (lv : Nat → BitVec 32) (s : State) (o k : Nat) (x : State) : Prop :=
  execLevels i lv (o + 1) s = toOut (enterAt (programOf s.cfg i) k (x.setPinIn (lv o)))

/-- In the `d` cycles from offset `o` on the command dwells in phase `k`, in the state `y` but for the pads' levels and
the countdown. -/
def DwellsAt (i : Instr) (lv : Nat → BitVec 32) (s : State) (o d k : Nat) (y : State) : Prop :=
  ∀ m, o < m → m ≤ o + d →
    execLevels i lv m s = .next ((y.setPinIn (lv (m - 1))).setSeq (dwelling y.seq k (o + d - m)))

section

variable {i : Instr} {lv : Nat → BitVec 32} {s : State}

/-- One more cycle of a command. -/
theorem execLevels_succ {n : Nat} {t : State} (h : execLevels i lv n s = .next t) :
    execLevels i lv (n + 1) s = exec i (t.setPinIn (lv n)) := by
  rw [execLevels, h]

/-- An accepted command enters its phase 0 at offset 0. -/
theorem entersAt_zero (h : Accepted s) : EntersAt i lv s 0 0 s := by
  have hacc : Accepted (s.setPinIn (lv 0)) := h
  exact exec_accepted rfl hacc

/-- The phase is entered in a state that only the fields `atPhase` writes may tell from the one given. -/
theorem enterAt_congr {P : MicroProgram} {k : Nat} {x y : State} (h : atPhase x k = atPhase y k) :
    enterAt P k x = enterAt P k y := by
  rw [enterAt, h, enterAt]

/-- A phase entered at offset `o` with the dwell `d` dwells until offset `o + d`, and there the next one is entered. -/
theorem EntersAt.phase {P : MicroProgram} {o k d : Nat} {x : State} (h : EntersAt i lv s o k x) (y : State)
    (hP : programOf s.cfg i = P) (hphase : PhaseDoes P k d (x.setPinIn (lv o)) (y.setPinIn (lv o)))
    (hk : k + 1 < 2 ^ 32) (hd : d < 2 ^ 32) (hcfg : y.cfg = s.cfg) (hbusy : y.seq.busy = true) :
    DwellsAt i lv s o d k y ∧ EntersAt i lv s (o + d) (k + 1) y := by
  have dwells : ∀ j, j < d → execLevels i lv (o + 1 + j) s =
      .next ((y.setPinIn (lv (o + j))).setSeq (dwelling y.seq k (d - 1 - j))) := by
    intro j
    induction j with
    | zero =>
      intro hpos
      have h := h
      rw [EntersAt, hP, hphase.stop hpos] at h
      exact h
    | succ j ih =>
      intro hj
      obtain ⟨r, hr⟩ : ∃ r, d - 1 - j = r + 1 := ⟨d - 1 - j - 1, by omega⟩
      have hcnt : BitVec.ofNat 32 (d - 1 - j) ≠ 0 := fun h0 => by
        have hzero : (BitVec.ofNat 32 (d - 1 - j)).toNat = 0 := by rw [h0]; rfl
        rw [BitVec.toNat_ofNat] at hzero
        omega
      rw [← Nat.add_assoc, execLevels_succ (ih (by omega))]
      refine (exec_dwell i ?busy ?fresh ?cnt).trans ?_
      case busy => exact hbusy
      case fresh => rfl
      case cnt => exact hcnt
      show Host.Outcome.next (((y.setPinIn (lv (o + 1 + j))).setSeq
        { dwelling y.seq k (d - 1 - j) with cnt := BitVec.ofNat 32 (d - 1 - j) - 1 })) = _
      rw [hr, ofNat_succ_sub_one, show d - 1 - (j + 1) = r by omega, show o + 1 + j = o + (j + 1) by omega]
      rfl
  refine ⟨fun m hlo hhi => ?_, ?_⟩
  · obtain ⟨j, rfl⟩ : ∃ j, m = o + 1 + j := ⟨m - (o + 1), by omega⟩
    rw [dwells j (by omega), show o + 1 + j - 1 = o + j by omega, show o + d - (o + 1 + j) = d - 1 - j by omega]
  · rcases Nat.eq_zero_or_pos d with rfl | hpos
    · rw [Nat.add_zero, EntersAt, h, hP, hphase.fall rfl]
    · obtain ⟨j, rfl⟩ : ∃ j, d = j + 1 := ⟨d - 1, by omega⟩
      have hlast := dwells j (Nat.lt_succ_self j)
      rw [show j + 1 - 1 - j = 0 by omega, show o + 1 + j = o + (j + 1) by omega] at hlast
      have hover : PhaseOver
          (((y.setPinIn (lv (o + j))).setSeq (dwelling y.seq k 0)).setPinIn (lv (o + (j + 1)))) k :=
        ⟨hbusy, rfl, rfl, rfl⟩
      rw [EntersAt, execLevels_succ hlast, exec_phaseOver rfl hover hk]
      simp only [State.setPinIn_cfg, State.setSeq_cfg, hcfg]
      exact congrArg toOut (enterAt_congr rfl)

/-- The dwell of the first phase, its offsets counted from 0. -/
theorem DwellsAt.fromZero {d k : Nat} {y : State} (h : DwellsAt i lv s 0 d k y) (m : Nat) (hlo : 0 < m) (hhi : m ≤ d) :
    execLevels i lv m s = .next ((y.setPinIn (lv (m - 1))).setSeq (dwelling y.seq k (d - m))) := by
  rw [h m hlo (by rwa [Nat.zero_add]), Nat.zero_add]

/-- After the last phase the command completes in the cycle its dwell ends. -/
theorem EntersAt.done {P : MicroProgram} {o k : Nat} {x t : State} (h : EntersAt i lv s o k x)
    (hP : programOf s.cfg i = P) (hdone : enterAt P k (x.setPinIn (lv o)) = .ok t) :
    execLevels i lv (o + 1) s = .next t := by
  rw [h, hP, hdone]
  rfl

end

/-- The result of a command that samples one bit is that bit (R165, R167). -/
theorem accBit_setAcc (b : Bool) (s : State) : accBit (setAcc (bitByte b) s) = (bitByte b).setWidth 32 := by
  have hresult : ∀ b : Bool, (if (bitByte b).getLsbD 0 then (1 : Word) else 0) = (bitByte b).setWidth 32 := by decide
  exact hresult b

/-! ## The traces of the bit-level commands (R177) -/

section

variable {s : State} (pin : Byte) (lv : Nat → BitVec 32) (hacc : Accepted s) (hpin : pinUsable s.cfg pin = true)
  (hfit : s.cfg.DwellsFit) (how : s.cfg.OneWireValid)

include hacc hpin hfit how

/-- `OW_RESET`: the wait, the pin low, the pin released, the sample held, and the completion. -/
theorem owReset_trace :
    let c := s.cfg
    let G := cyc c c.timeG
    let H := cyc c c.timeH
    let I := cyc c c.timeI
    let J := cyc c c.timeJ
    let rel := pinRelease pin.toNat (pinDriveLow pin.toNat s)
    let held := setAcc (bitByte ((lv (G + H + I)).getLsbD pin.toNat)) rel
    DwellsAt (.owReset pin) lv s 0 G 0 s ∧ DwellsAt (.owReset pin) lv s G H 1 (pinDriveLow pin.toNat s) ∧
      DwellsAt (.owReset pin) lv s (G + H) I 2 rel ∧ DwellsAt (.owReset pin) lv s (G + H + I) J 3 held ∧
      execLevels (.owReset pin) lv (G + H + I + J + 1) s =
        .next { held with
          pinIn := lv (G + H + I + J), result := accBit held, seq := completed held.seq 4 } := by
  intro c G H I J rel held
  obtain ⟨-, ⟨-, hG, hH, hI, hJ⟩, -⟩ := how
  have hbusy : s.seq.busy = true := hacc.1
  have hP : programOf s.cfg (.owReset pin) = owResetProgram c pin.toNat := onPin_usable hpin _
  have e0 : EntersAt (.owReset pin) lv s 0 0 s := entersAt_zero hacc
  obtain ⟨d0, e1⟩ := e0.phase s hP (owReset_wait c pin.toNat _) (by decide) (cyc_lt hfit hG) rfl hbusy
  rw [Nat.zero_add] at e1
  obtain ⟨d1, e2⟩ := e1.phase (pinDriveLow pin.toNat s) hP (owReset_low c pin.toNat _) (by decide) (cyc_lt hfit hH)
    rfl hbusy
  obtain ⟨d2, e3⟩ := e2.phase rel hP (owReset_release c pin.toNat _) (by decide) (cyc_lt hfit hI) rfl hbusy
  obtain ⟨d3, e4⟩ := e3.phase held hP (owReset_sample c pin.toNat _) (by decide) (cyc_lt hfit hJ) rfl hbusy
  exact ⟨d0, d1, d2, d3, e4.done hP (owReset_done c pin.toNat _)⟩

/-- `OW_WRITEBIT`: the pin low, the pin released, and the completion. -/
theorem owWriteBit_trace (b : BitVec 1) :
    let L := writeLow s.cfg (b == 1)
    let R := writeRest s.cfg (b == 1)
    let rel := pinRelease pin.toNat (pinDriveLow pin.toNat s)
    DwellsAt (.owWriteBit pin b) lv s 0 L 0 (pinDriveLow pin.toNat s) ∧ DwellsAt (.owWriteBit pin b) lv s L R 1 rel ∧
      execLevels (.owWriteBit pin b) lv (L + R + 1) s =
        .next { rel with pinIn := lv (L + R), result := 0, seq := completed s.seq 2 } := by
  intro L R rel
  obtain ⟨⟨hA, hB, hC, hD, -⟩, -⟩ := how
  have hbusy : s.seq.busy = true := hacc.1
  have hL : L < 2 ^ 32 := by
    simp only [L, writeLow]
    split
    · exact cyc_lt hfit hA
    · exact cyc_lt hfit hC
  have hR : R < 2 ^ 32 := by
    simp only [R, writeRest]
    split
    · exact cyc_lt hfit hB
    · exact cyc_lt hfit hD
  have hP : programOf s.cfg (.owWriteBit pin b) = owWriteBitProgram s.cfg pin.toNat (b == 1) := onPin_usable hpin _
  have e0 : EntersAt (.owWriteBit pin b) lv s 0 0 s := entersAt_zero hacc
  obtain ⟨d0, e1⟩ := e0.phase (pinDriveLow pin.toNat s) hP (owWriteBit_low _ pin.toNat _ _) (by decide) hL rfl hbusy
  rw [Nat.zero_add] at e1
  obtain ⟨d1, e2⟩ := e1.phase rel hP (owWriteBit_rest _ pin.toNat _ _) (by decide) hR rfl hbusy
  exact ⟨d0, d1, e2.done hP (owWriteBit_done _ pin.toNat _ _)⟩

/-- `OW_READBIT`: the pin low, the pin released, the sample held, and the completion. -/
theorem owReadBit_trace :
    let c := s.cfg
    let A := cyc c c.timeA
    let E := cyc c c.timeE
    let F := cyc c c.timeF
    let rel := pinRelease pin.toNat (pinDriveLow pin.toNat s)
    let held := setAcc (bitByte ((lv (A + E)).getLsbD pin.toNat)) rel
    DwellsAt (.owReadBit pin) lv s 0 A 0 (pinDriveLow pin.toNat s) ∧ DwellsAt (.owReadBit pin) lv s A E 1 rel ∧
      DwellsAt (.owReadBit pin) lv s (A + E) F 2 held ∧
      execLevels (.owReadBit pin) lv (A + E + F + 1) s =
        .next { held with pinIn := lv (A + E + F), result := accBit held, seq := completed held.seq 3 } := by
  intro c A E F rel held
  obtain ⟨⟨hA, -, -, -, hE⟩, ⟨hF, -⟩, -⟩ := how
  have hbusy : s.seq.busy = true := hacc.1
  have hP : programOf s.cfg (.owReadBit pin) = owReadBitProgram c pin.toNat := onPin_usable hpin _
  have e0 : EntersAt (.owReadBit pin) lv s 0 0 s := entersAt_zero hacc
  obtain ⟨d0, e1⟩ := e0.phase (pinDriveLow pin.toNat s) hP (owReadBit_low c pin.toNat _) (by decide)
    (cyc_lt hfit hA) rfl hbusy
  rw [Nat.zero_add] at e1
  obtain ⟨d1, e2⟩ := e1.phase rel hP (owReadBit_release c pin.toNat _) (by decide) (cyc_lt hfit hE) rfl hbusy
  obtain ⟨d2, e3⟩ := e2.phase held hP (owReadBit_sample c pin.toNat _) (by decide) (cyc_lt hfit hF) rfl hbusy
  exact ⟨d0, d1, d2, e3.done hP (owReadBit_done c pin.toNat _)⟩

end

end Sys2Proof.Machine

namespace Sys2Proof.Claims

open Sys2Proof.Machine

/-- Settles O32: the traces of the three bit-level commands, phase after phase from offset 0. -/
theorem owEventTrace : Obligations.OwEventTrace := by
  intro s pin lv hacc hpin hfit how c p A E F G H I J low rel bit
  obtain ⟨r0, r1, r2, r3, r4⟩ := owReset_trace pin lv hacc hpin hfit how
  obtain ⟨b0, b1, b2, b3⟩ := owReadBit_trace pin lv hacc hpin hfit how
  rw [accBit_setAcc] at r4 b3
  refine ⟨r0.fromZero, r1, r2, r3, r4, fun b => ?_, b0.fromZero, b1, b2, b3⟩
  intro L R
  have hL : writeLow s.cfg (b == 1) = L := by simp only [L, A, c, writeLow, beq_iff_eq]
  have hR : writeRest s.cfg (b == 1) = R := by simp only [R, c, writeRest, beq_iff_eq]
  obtain ⟨w0, w1, w2⟩ := owWriteBit_trace pin lv hacc hpin hfit how b
  rw [hL] at w0
  rw [hL, hR] at w1 w2
  exact ⟨w0.fromZero, w1, w2⟩

end Sys2Proof.Claims
end

section
/-! SUPPORT. What an access to a reserved offset does (20_memory.md R74). -/

namespace Sys2Proof.Machine

/-- The word indices that name no register: after the low registers, in the EVT block a slot that does not exist or a
word after EVTCB, and after the pin registers (20_memory.md R72, R74). -/
def ReservedIndex (c : Config) (n : Nat) : Prop :=
  (13 ≤ n ∧ n ≤ 15) ∨ (16 ≤ n ∧ n < 80 ∧ (c.nEvt ≤ (n - 16) / 8 ∨ 5 ≤ (n - 16) % 8)) ∨ 83 ≤ n

/-- A word of the EVT block reads 0 where its slot does not exist and after EVTCB. -/
theorem evtWord_reserved {s : State} {k r : Nat} (h : s.cfg.nEvt ≤ k ∨ 5 ≤ r) : evtWord s k r = 0 := by
  rcases h with hslot | hword
  · exact if_neg (Nat.not_lt.2 hslot)
  · simp [evtWord, show r ≠ 0 ∧ r ≠ 1 ∧ r ≠ 2 ∧ r ≠ 3 ∧ r ≠ 4 by omega]

/-- A reserved index reads 0. -/
theorem regRead_reserved {s : State} {widx : BitVec 7} (h : ReservedIndex s.cfg widx.toNat) : regRead s widx = 0 := by
  unfold regRead
  generalize widx.toNat = n at h
  rcases h with ⟨hlo, hhi⟩ | ⟨hlo, hhi, hevt⟩ | hpin
  · obtain rfl | rfl | rfl : n = 13 ∨ n = 14 ∨ n = 15 := by omega
    all_goals rfl
  · simp only [if_neg (Nat.not_lt.2 hlo), if_pos hhi, evtWord_reserved hevt]
  · simp [pinWord, show ¬ n < 16 ∧ ¬ n < 80 ∧ n ≠ 80 ∧ n ≠ 81 ∧ n ≠ 82 by omega]

/-- A write above the last register that takes one, INTCON, is ignored (20_memory.md R72, R75). -/
theorem regWrite_above_intcon {widx : BitVec 7} (h : 5 ≤ widx.toNat) (v : Word) (s : State) :
    regWrite widx v s = s := by
  have hne : ∀ w : BitVec 7, w.toNat < 5 → widx ≠ w := by
    rintro _ hw rfl
    omega
  rw [regWrite, if_neg (hne 0 (by decide)), if_neg (hne 1 (by decide)), if_neg (hne 3 (by decide)),
    if_neg (hne 4 (by decide))]

end Sys2Proof.Machine

namespace Sys2Proof.Claims

open Sys2Proof.Machine

/-- Settles O8: a reserved index reads 0, and it lies above the registers that take a write. -/
theorem reservedOffsets : Obligations.ReservedOffsets := by
  intro s widx v h
  have hread : regRead s widx = 0 := regRead_reserved h
  refine ⟨?_, regWrite_above_intcon (by omega) v s⟩
  rw [hostAccess, hread]
  rfl

end Sys2Proof.Claims
end

section
/-! SUPPORT. What a pass of the Manchester encoder leaves, group by group (42_manchester.md R190, R191). -/

namespace Sys2Proof.Machine

/-- The group of a data bit (42_manchester.md R190). -/
def manGroup (b : Bool) : BitVec 2 := if b then 0b01#2 else 0b10#2

/-- Two neighbouring bits are the group of `b` where the lower one is `b` and the upper one its complement. -/
theorem extractLsb'_eq_manGroup {n : Nat} {x : BitVec n} {j : Nat} {b : Bool} (hlo : x.getLsbD j = b)
    (hhi : x.getLsbD (j + 1) = !b) : x.extractLsb' j 2 = manGroup b := by
  have hgroup : ∀ b i, i < 2 → (manGroup b).getLsbD i = if i = 0 then b else !b := by decide
  refine BitVec.eq_of_getLsbD_eq fun i hi => ?_
  rw [hgroup b i hi]
  obtain rfl | rfl : i = 0 ∨ i = 1 := by omega
  · simpa using hlo
  · simpa using hhi

/-- The coded byte so far, moved down by one group to make room for the group of `b` at the top (R191). -/
def pushGroup (b : Bool) (acc : Byte) : Byte := (acc >>> 2) ||| (if b then 0b01000000#8 else 0b10000000#8)

/-- One bit of a pass. -/
theorem encodePass_succ (r : Nat) (c acc : Byte) :
    encodePass (r + 1) c acc = encodePass r (c >>> 1) (pushGroup (c.getLsbD 0) acc) := rfl

/-- The bits of the coded byte after a group has been pushed. -/
theorem getLsbD_pushGroup (b : Bool) (acc : Byte) {j : Nat} (hj : j < 8) :
    (pushGroup b acc).getLsbD j = if j < 6 then acc.getLsbD (j + 2) else if j = 6 then b else !b := by
  have htop : ∀ b j, j < 8 → (if b then 0b01000000#8 else 0b10000000#8).getLsbD j =
      if j < 6 then false else if j = 6 then b else !b := by decide
  rw [pushGroup, BitVec.getLsbD_or, htop b j hj, BitVec.getLsbD_ushiftRight, Nat.add_comm 2 j]
  split
  · exact Bool.or_false _
  · rw [BitVec.getLsbD_of_ge acc _ (by omega), Bool.false_or]

/-- A pass takes its bits off the byte it encodes. -/
theorem encodePass_rest (r : Nat) (c acc : Byte) : (encodePass r c acc).2 = c >>> r := by
  induction r generalizing c acc with
  | zero => rfl
  | succ r ih => rw [encodePass_succ, ih, Nat.add_comm r 1, BitVec.shiftRight_add]

/-- A pass of `r` bits moves what was coded before down by `r` groups. -/
theorem encodePass_moves (r : Nat) (c acc : Byte) {j : Nat} (hj : j + 2 * r < 8) :
    (encodePass r c acc).1.getLsbD j = acc.getLsbD (j + 2 * r) := by
  induction r generalizing c acc with
  | zero => rfl
  | succ r ih =>
    rw [encodePass_succ, ih _ _ (by omega), getLsbD_pushGroup _ _ (by omega), if_pos (by omega)]
    rfl

/-- A pass of `r` bits leaves their groups in the top `r` places, the group of the least significant bit lowest. -/
theorem encodePass_group {r : Nat} (hr : r ≤ 4) (c acc : Byte) {k : Nat} (hk : k < r) :
    (encodePass r c acc).1.extractLsb' (8 - 2 * r + 2 * k) 2 = manGroup (c.getLsbD k) := by
  induction r generalizing c acc k with
  | zero => omega
  | succ r ih =>
    rw [encodePass_succ]
    cases k with
    | zero =>
      have hbit : ∀ j, 6 ≤ j → j < 8 →
          (encodePass r (c >>> 1) (pushGroup (c.getLsbD 0) acc)).1.getLsbD (j - 2 * r) =
            if j = 6 then c.getLsbD 0 else !c.getLsbD 0 := fun j hlo hhi => by
        rw [encodePass_moves _ _ _ (by omega), Nat.sub_add_cancel (by omega), getLsbD_pushGroup _ _ hhi,
          if_neg (by omega)]
      rw [show 8 - 2 * (r + 1) + 2 * 0 = 6 - 2 * r by omega]
      refine extractLsb'_eq_manGroup (hbit 6 (by decide) (by decide)) ?_
      rw [show 6 - 2 * r + 1 = 7 - 2 * r by omega]
      exact hbit 7 (by decide) (by decide)
    | succ k =>
      have hgroup := ih (by omega) (c >>> 1) (pushGroup (c.getLsbD 0) acc) (Nat.lt_of_succ_lt_succ hk)
      rwa [BitVec.getLsbD_ushiftRight, Nat.add_comm 1 k,
        show 8 - 2 * r + 2 * k = 8 - 2 * (r + 1) + 2 * (k + 1) by omega] at hgroup

/-- The coded low nibble (R191, pass 0). -/
theorem manOut0_group (b : Byte) {k : Nat} (hk : k < 4) :
    (manOut0 b).extractLsb' (2 * k) 2 = manGroup (b.getLsbD k) := by
  have hgroup := encodePass_group (Nat.le_refl 4) b 0 hk
  rwa [Nat.sub_self, Nat.zero_add] at hgroup

/-- The coded high nibble (R191, pass 1). -/
theorem manOut1_group (b : Byte) {k : Nat} (hk : k < 4) :
    (manOut1 b).extractLsb' (2 * k) 2 = manGroup (b.getLsbD (k + 4)) := by
  have hgroup := encodePass_group (Nat.le_refl 4) (b >>> 4) 0 hk
  rwa [Nat.sub_self, Nat.zero_add, BitVec.getLsbD_ushiftRight, Nat.add_comm 4 k,
    ← encodePass_rest 4 b 0] at hgroup

/-- An immediate command that only gives a result completes with it in its first cycle (10_state.md R25). -/
theorem exec_immediate_setResult {i : Instr} {s : State} {r : Word}
    (hP : programOf s.cfg i = immediate (fun u => .ok (u.setResult r))) (h : Accepted s) :
    exec i s = .next { s with result := r, seq := completed s.seq 1 } := by
  have hphase : PhaseDoes (immediate (fun u => .ok (u.setResult r))) 0 0 s (s.setResult r) :=
    phaseDoes Nat.one_pos (by decide) rfl rfl
  have hdone : enterAt (immediate (fun u => .ok (u.setResult r))) 1 (s.setResult r) =
      .ok { s with result := r, seq := completed s.seq 1 } := enterAt_done rfl rfl
  rw [exec_accepted hP h, hphase.fall rfl, hdone]
  rfl

end Sys2Proof.Machine

namespace Sys2Proof.Claims

open Sys2Proof.Machine

/-- Settles O36: the result is the two coded bytes below 16 zero bits, and each byte has the groups of its nibble. -/
theorem manEncode : Obligations.ManEncode := by
  intro s b hacc
  refine ⟨0#16 ++ manOut1 b ++ manOut0 b, exec_immediate_setResult rfl hacc, ?_, fun k hk => ⟨?_, ?_⟩⟩
  · rw [BitVec.extractLsb'_append_eq_of_le (by decide), BitVec.extractLsb'_append_eq_of_le (by decide)]
    rfl
  · rw [BitVec.extractLsb'_append_eq_of_add_le (by omega)]
    exact manOut0_group b hk
  · rw [BitVec.extractLsb'_append_eq_of_le (Nat.le_add_right 8 _), Nat.add_sub_cancel_left,
      BitVec.extractLsb'_append_eq_of_add_le (by omega)]
    exact manOut1_group b hk

end Sys2Proof.Claims
end

section
/-! SUPPORT. The read data is an output only: no part of a cycle after the host's access looks at it, so each part does
the same whatever it is, and leaves it as it found it (20_memory.md R71, R75; 70_reset_and_hazards.md R330, log 4). -/

namespace Sys2Proof.Machine

/-! ## The updates of the other fields -/

section
variable (s : State) (d : Option Word)

@[simp] theorem setStatus_setReadData (v : Status) :
    (s.setReadData d).setStatus v = (s.setStatus v).setReadData d := rfl
@[simp] theorem setIntcon_setReadData (v : IntCon) :
    (s.setReadData d).setIntcon v = (s.setIntcon v).setReadData d := rfl
@[simp] theorem setSeq_setReadData (v : Seq) : (s.setReadData d).setSeq v = (s.setSeq v).setReadData d := rfl
@[simp] theorem setTt_setReadData (v : Timer) : (s.setReadData d).setTt v = (s.setTt v).setReadData d := rfl
@[simp] theorem setRt_setReadData (v : Timer) : (s.setReadData d).setRt v = (s.setRt v).setReadData d := rfl
@[simp] theorem setRf_setReadData (v : RfRecord) : (s.setReadData d).setRf v = (s.setRf v).setReadData d := rfl
@[simp] theorem setEvt_setReadData (v : List EvtSlot) : (s.setReadData d).setEvt v = (s.setEvt v).setReadData d := rfl

end

/-! ## How the parts are put together -/

/-- The answer of a part of the cycle, with other read data. -/
def withReadData (d : Option Word) (x : Except Fault State) : Except Fault State := x.map (·.setReadData d)

@[simp] theorem withReadData_ok (d : Option Word) (s : State) : withReadData d (.ok s) = .ok (s.setReadData d) := rfl

@[simp] theorem withReadData_error (d : Option Word) (f : Fault) : withReadData d (.error f) = .error f := rfl

/-- A part of the cycle that does the same whatever the read data is, and leaves it. -/
def IgnoresReadData (f : State → Except Fault State) : Prop := ∀ s d, f (s.setReadData d) = withReadData d (f s)

/-- A function of either branch of a choice is that function of the choice. -/
theorem ite_of_branches {α β : Type} (f : α → β) {c : Prop} [Decidable c] {x y : α} {x' y' : β} (hx : x' = f x)
    (hy : y' = f y) : (if c then x' else y') = f (if c then x else y) := by
  rw [hx, hy, apply_ite f]

/-! ## The timers -/

theorem timersStep_setReadData (s : State) (d : Option Word) :
    timersStep (s.setReadData d) = (timersStep s).setReadData d := by
  simp only [timersStep, tickEvent, rfEvent, evtEvents, setTt_setReadData, setRt_setReadData, setEvt_setReadData,
    setStatus_setReadData, setIntcon_setReadData]
  rfl

/-! ## The receiver (43_rf433.md R219 to R227) -/

theorem learnLength_setReadData (v : Byte) (s : State) (d : Option Word) :
    learnLength v (s.setReadData d) = (learnLength v s).setReadData d := by
  by_cases hclamp : learnedLength v s.rf.capBytes = v <;> simp [learnLength, raiseRfClamp, hclamp]

theorem bufStore_ignoresReadData (i : Nat) (v : Byte) : IgnoresReadData (bufStore i v) := fun _ _ =>
  ite_of_branches _ rfl rfl

theorem emitByte_ignoresReadData : IgnoresReadData emitByte := by
  intro s d
  have hbyte : emittedByte (s.setReadData d) = emittedByte s := rfl
  simp only [emitByte, hbyte, State.setReadData_rf, bufStore_ignoresReadData _ _ s d]
  rw [← withReadData_ok d s, ← apply_ite (withReadData d)]
  generalize (if s.rf.curByte.toNat < s.rf.capBytes.toNat then bufStore _ _ _ else _) = stored
  cases stored with
  | error f => rfl
  | ok t =>
    simp only [withReadData_ok, setRf_setReadData, State.setReadData_rf, learnLength_setReadData]
    exact congrArg Except.ok (ite_of_branches (State.setReadData · d) rfl rfl)

theorem addManBit_ignoresReadData (b : Bool) : IgnoresReadData (addManBit b) := by
  intro s d
  simp only [addManBit, setRf_setReadData, State.setReadData_rf, emitByte_ignoresReadData _ d]
  refine ite_of_branches _ ?_ rfl
  generalize emitByte _ = emitted
  cases emitted <;> rfl

theorem rfDataEdge_ignoresReadData : IgnoresReadData rfDataEdge := by
  intro s d
  simp only [rfDataEdge, State.setReadData_rf, addManBit_ignoresReadData _ s d]
  refine ite_of_branches _ rfl ?_
  cases addManBit s.rf.sample s <;> rfl

theorem rfData_ignoresReadData (tr : Bool) : IgnoresReadData (rfData tr) := by
  intro s d
  refine ite_of_branches _ ?_ rfl
  simp only [State.setReadData_cfg, State.setReadData_rf]
  cases classify s.cfg s.rf.count.toNat with
  | bad => rfl
  | short => exact rfDataEdge_ignoresReadData s d
  | long =>
    simp only [addManBit_ignoresReadData _ s d]
    cases addManBit s.rf.lastSample s with
    | error f => rfl
    | ok t => exact rfDataEdge_ignoresReadData t d

theorem rfSync_setReadData (tr : Bool) (s : State) (d : Option Word) :
    rfSync tr (s.setReadData d) = (rfSync tr s).setReadData d := by
  unfold rfSync
  refine ite_of_branches (State.setReadData · d) ?_ rfl
  simp only [State.setReadData_cfg, State.setReadData_rf]
  cases classify s.cfg s.rf.count.toNat with
  | bad | short => rfl
  | long => exact ite_of_branches (State.setReadData · d) rfl rfl

theorem rfModeStep_ignoresReadData (m : RfMode) (tr : Bool) : IgnoresReadData (rfModeStep m tr) := by
  intro s d
  cases m with
  | pre => exact congrArg Except.ok (ite_of_branches (State.setReadData · d) rfl rfl)
  | sync => exact congrArg Except.ok (rfSync_setReadData tr s d)
  | data => exact rfData_ignoresReadData tr s d
  | msg | idle => rfl

theorem rfHandler_ignoresReadData : IgnoresReadData rfHandler := by
  intro s d
  have hsample : rfSample (s.setReadData d) = (rfSample s).setReadData d := rfl
  simp only [rfHandler, hsample, State.setReadData_rf, rfModeStep_ignoresReadData _ _ _ d]
  refine ite_of_branches _ rfl ?_
  generalize rfModeStep _ _ _ = stepped
  cases stepped <;> rfl

/-! ## INT (60_exceptions.md R290 to R298) -/

theorem handlerOf_ignoresReadData (src : IntSource) : IgnoresReadData (handlerOf src) := by
  intro s d
  cases src with
  | tick => rfl
  | rf => exact rfHandler_ignoresReadData s d
  | evt k => exact congrArg Except.ok (ite_of_branches (State.setReadData · d) rfl rfl)

theorem readySource_setReadData (s : State) (d : Option Word) : readySource (s.setReadData d) = readySource s := by
  have hready : isReady (s.setReadData d) = isReady s := by
    funext src
    cases src <;> rfl
  rw [readySource, hready]
  rfl

theorem takeInterrupt_ignoresReadData (src : IntSource) : IgnoresReadData (takeInterrupt (handlerOf src) src) := by
  intro s d
  have hclear : clearPending src (s.setReadData d) = (clearPending src s).setReadData d := by cases src <;> rfl
  simp only [takeInterrupt, hclear, handlerOf_ignoresReadData src _ d]
  cases handlerOf src (clearPending src s) <;> rfl

theorem intDispatch_ignoresReadData : IgnoresReadData intDispatch := by
  intro s d
  refine ite_of_branches _ ?_ rfl
  rw [readySource_setReadData]
  cases readySource s with
  | none => rfl
  | some src => exact takeInterrupt_ignoresReadData src s d

/-! ## SEQ (10_state.md R25) -/

/-- A micro-program that does the same whatever the read data is, and leaves it. -/
structure ProgramIgnoresReadData (P : MicroProgram) : Prop where
  action : ∀ k, IgnoresReadData (P.action k)
  dwell : ∀ k s d, P.dwell k (s.setReadData d) = P.dwell k s
  finish : ∀ s d, P.finish (s.setReadData d) = (P.finish s).setReadData d

/-- An immediate command ignores the read data where its action does. -/
theorem ProgramIgnoresReadData.immediate {f : State → Except Fault State} (hf : IgnoresReadData f) :
    ProgramIgnoresReadData (immediate f) := ⟨fun _ => hf, fun _ _ _ => rfl, fun _ _ => rfl⟩

/-- A refusal ignores the read data. -/
theorem ProgramIgnoresReadData.refused (r : Word) : ProgramIgnoresReadData (refusedProgram r) :=
  .immediate fun _ _ => rfl

/-- A command that is refused on some operands. -/
theorem ProgramIgnoresReadData.ite_refused {c : Prop} [Decidable c] {P : MicroProgram} {r : Word}
    (hP : ProgramIgnoresReadData P) : ProgramIgnoresReadData (if c then P else refusedProgram r) := by
  split
  · exact hP
  · exact .refused r

/-- Entering a phase, and the phases it falls through to. -/
theorem ProgramIgnoresReadData.enter {P : MicroProgram} (hP : ProgramIgnoresReadData P) (r : Nat) :
    IgnoresReadData (enterPhases P r) := by
  induction r with
  | zero =>
    intro s d
    simp only [enterPhases, completeCommand, hP.finish]
    rfl
  | succ r ih =>
    intro s d
    simp only [enterPhases, State.setReadData_seq, hP.action _ s d]
    cases P.action s.seq.phase.toNat s with
    | error f => rfl
    | ok t =>
      simp only [withReadData_ok, hP.dwell, State.setReadData_seq, setSeq_setReadData, ih _ d]
      exact ite_of_branches _ rfl rfl

/-- A cycle of SEQ on the program. -/
theorem ProgramIgnoresReadData.step {P : MicroProgram} (hP : ProgramIgnoresReadData P) :
    IgnoresReadData (seqStep P) := by
  intro s d
  simp only [seqStep, State.setReadData_seq, setSeq_setReadData, hP.enter _ _ d]
  exact ite_of_branches _ (ite_of_branches _ rfl (ite_of_branches _ rfl rfl)) rfl

/-! ### The programs of the commands -/

theorem bufLoad_setReadData (i : Nat) (s : State) (d : Option Word) : bufLoad (s.setReadData d) i = bufLoad s i := rfl

theorem owResetProgram_ignoresReadData (c : Config) (p : Nat) : ProgramIgnoresReadData (owResetProgram c p) :=
  ⟨fun _ _ _ => ite_of_branches _ rfl (ite_of_branches _ rfl (ite_of_branches _ rfl rfl)), fun _ _ _ => rfl,
    fun _ _ => rfl⟩

theorem owWriteBitProgram_ignoresReadData (c : Config) (p : Nat) (b : Bool) :
    ProgramIgnoresReadData (owWriteBitProgram c p b) :=
  ⟨fun _ _ _ => ite_of_branches _ rfl rfl, fun _ _ _ => rfl, fun _ _ => rfl⟩

theorem owReadBitProgram_ignoresReadData (c : Config) (p : Nat) : ProgramIgnoresReadData (owReadBitProgram c p) :=
  ⟨fun _ _ _ => ite_of_branches _ rfl (ite_of_branches _ rfl rfl), fun _ _ _ => rfl, fun _ _ => rfl⟩

theorem owWriteByteProgram_ignoresReadData (c : Config) (p : Nat) (v : Byte) :
    ProgramIgnoresReadData (owWriteByteProgram c p v) :=
  ⟨fun _ _ _ => ite_of_branches _ rfl (ite_of_branches _ rfl rfl), fun _ _ _ => rfl, fun _ _ => rfl⟩

theorem owReadByteProgram_ignoresReadData (c : Config) (p : Nat) : ProgramIgnoresReadData (owReadByteProgram c p) := by
  refine ⟨fun k s d => ?_, fun _ _ _ => rfl, fun _ _ => rfl⟩
  have hstart : startReadSlot (k / 4) (s.setReadData d) = (startReadSlot (k / 4) s).setReadData d :=
    ite_of_branches (State.setReadData · d) rfl rfl
  have hsample : sampleIntoAcc p (s.setReadData d) = (sampleIntoAcc p s).setReadData d :=
    ite_of_branches (State.setReadData · d) rfl rfl
  simp only [owReadByteProgram, hstart, hsample]
  exact ite_of_branches _ rfl (ite_of_branches _ rfl (ite_of_branches _ rfl rfl))

theorem rfRdBufAction_ignoresReadData (i : Nat) : IgnoresReadData (rfRdBufAction i) := by
  intro s d
  simp only [rfRdBufAction, bufLoad_setReadData]
  cases bufLoad s i <;> rfl

theorem rfGetMsgAction_ignoresReadData : IgnoresReadData rfGetMsgAction := by
  intro s d
  simp only [rfGetMsgAction, bufLoad_setReadData]
  cases bufLoad s 0 with
  | error f => rfl
  | ok b0 => cases bufLoad s 1 <;> rfl

/-- No command looks at the read data or writes it. -/
theorem programOf_ignoresReadData (c : Config) (i : Instr) : ProgramIgnoresReadData (programOf c i) := by
  cases i with
  | nop | millisInit | millis | micros | manEncode | manDecode | manNibbler | rfBegin | rfComplete | rfStop =>
    exact .immediate fun _ _ => rfl
  | delayUs | delayMs => exact ⟨fun _ _ _ => rfl, fun _ _ _ => rfl, fun _ _ => rfl⟩
  | owReset => exact .ite_refused (owResetProgram_ignoresReadData _ _)
  | owReadBit => exact .ite_refused (owReadBitProgram_ignoresReadData _ _)
  | owWriteBit => exact .ite_refused (owWriteBitProgram_ignoresReadData _ _ _)
  | owReadByte => exact .ite_refused (owReadByteProgram_ignoresReadData _ _)
  | owWriteByte => exact .ite_refused (owWriteByteProgram_ignoresReadData _ _ _)
  | rfInit | rfBeginBytes | evtRelease => exact .ite_refused (.immediate fun _ _ => rfl)
  | rfGetMsg => exact .immediate rfGetMsgAction_ignoresReadData
  | rfRdBuf => exact .ite_refused (.immediate (rfRdBufAction_ignoresReadData _))
  | evtOnTimer =>
    exact .ite_refused (.immediate fun _ d =>
      congrArg Except.ok (ite_of_branches (State.setReadData · d) rfl rfl))

theorem exec_setReadData (i : Instr) (s : State) (d : Option Word) :
    exec i (s.setReadData d) = mapNext (·.setReadData d) (exec i s) := by
  rw [exec_eq_runProgram, exec_eq_runProgram, runProgram, runProgram, State.setReadData_cfg,
    (programOf_ignoresReadData s.cfg i).step s d]
  cases seqStep (programOf s.cfg i) s <;> rfl

/-! ## The cycle (70_reset_and_hazards.md R330) -/

theorem afterInt_setReadData (b : Bool) (s : State) (d : Option Word) :
    afterInt b (s.setReadData d) = mapNext (·.setReadData d) (afterInt b s) := by
  have hcountdown : isrCountdown (s.setReadData d) = (isrCountdown s).setReadData d := rfl
  have hheld : held (s.setReadData d) = held s := rfl
  have hfetch : fetchCommand ((isrCountdown s).setReadData d) = fetchCommand (isrCountdown s) := rfl
  simp only [afterInt, seqCycle, hcountdown, hheld, hfetch]
  cases b && !held s with
  | false => rfl
  | true =>
    cases fetchCommand (isrCountdown s) with
    | error w => rfl
    | ok i =>
      simp only [exec_setReadData, if_true]
      cases exec i (isrCountdown s) <;> rfl

/-- What follows the host's access. -/
theorem afterAccess_ignoresReadData : IgnoresReadData fun s => intDispatch (timersStep s) := fun s d => by
  show intDispatch (timersStep (s.setReadData d)) = _
  rw [timersStep_setReadData, intDispatch_ignoresReadData]

/-- The parts of a cycle before SEQ, with a read, are those without an access but for the read data. -/
theorem beforeSeq_withHost_read (s : State) (widx : BitVec 7) :
    beforeSeq (withHost (.read widx) s) = withReadData (some (regRead s widx)) (beforeSeq (withHost .idle s)) := by
  have hread : regRead (beginCycle (nextInput (withHost (.read widx) s)) (withHost (.read widx) s)) widx =
      regRead s widx := regRead_beginCycle _ _ _
  rw [beforeSeq, show (nextInput (withHost (.read widx) s)).host = .read widx from rfl, hostAccess, hread]
  exact afterAccess_ignoresReadData _ _

end Sys2Proof.Machine

namespace Sys2Proof.Claims

open Sys2Proof.Machine

/-- Settles O10: a read changes the read data only, and nothing after the host's access looks at it. -/
theorem readsHaveNoSideEffect : Obligations.ReadsHaveNoSideEffect := by
  intro s widx hrst
  have hbefore := beforeSeq_withHost_read s widx
  have hrst' : ∀ a, (nextInput (withHost a s)).rst = false := fun _ => hrst
  rw [step_eq_runCycle (hrst' _), step_eq_runCycle (hrst' _), runCycle, runCycle, hbefore]
  cases beforeSeq (withHost .idle s) with
  | error f => rfl
  | ok t => exact afterInt_setReadData s.seq.busy t _

end Sys2Proof.Claims
end

section
/-! SUPPORT. The slots of the byte commands, one after the other: where each begins, and the pin, the mask and the byte
assembled in it (41_onewire.md R170, R172). -/

namespace Sys2Proof.Machine

/-! ## The mask and the pin -/

/-- A bit written twice has the value written last. -/
theorem setBit_setBit {n : Nat} (v : BitVec n) (k : Nat) (a b : Bool) : setBit (setBit v k a) k b = setBit v k b := by
  refine BitVec.eq_of_getLsbD_eq fun j hj => ?_
  rw [getLsbD_setBit _ k j b hj, getLsbD_setBit _ k j a hj, getLsbD_setBit v k j b hj]
  split <;> rfl

/-- The mask of slot `i` selects bit `i` (R170, R172). -/
theorem and_slotMask_ne_zero (v : Byte) {i : Nat} (hi : i < 8) : (v &&& (1#8 <<< i) != 0) = v.getLsbD i := by
  have hmask : BitVec.twoPow 8 i ≠ 0 := fun h0 => by
    have hbit : (BitVec.twoPow 8 i).getLsbD i = true := by rw [BitVec.getLsbD_twoPow]; simp [hi]
    rw [h0] at hbit
    simp at hbit
  rw [← BitVec.twoPow_eq, BitVec.and_twoPow]
  cases v.getLsbD i
  · rfl
  · exact bne_iff_ne.2 hmask

/-! ## The states of a slot -/

/-- The state in slot `i` of a byte command while the pin is low: the slot's mask, and the byte assembled so far. -/
def slotLow (p i : Nat) (acc : Byte) (s : State) : State :=
  (pinDriveLow p s).setSeq { s.seq with mask := 1#8 <<< i, acc := acc }

/-- The state in slot `i` of a byte command, and after it, while the pin is released. -/
def slotReleased (p i : Nat) (acc : Byte) (s : State) : State :=
  (pinRelease p (pinDriveLow p s)).setSeq { s.seq with mask := 1#8 <<< i, acc := acc }

/-- Within a slot the pin is released. -/
theorem pinRelease_slotLow (p i : Nat) (acc : Byte) (s : State) (l : BitVec 32) :
    pinRelease p ((slotLow p i acc s).setPinIn l) = (slotReleased p i acc s).setPinIn l := by
  simp only [slotLow, slotReleased, pinDriveLow, pinRelease, State.setSeq, State.setPinIn, State.setPinDir,
    State.setPinLat]

/-- The next slot moves the mask up by one place and drives the pin low again. -/
theorem pinDriveLow_nextMask_slotReleased (p i : Nat) (acc : Byte) (s : State) :
    pinDriveLow p (nextMask (i + 1) (slotReleased p i acc s)) = slotLow p (i + 1) acc s := by
  simp only [slotReleased, slotLow, nextMask, setMask, pinDriveLow, pinRelease, State.setSeq, State.setPinDir,
    State.setPinLat, setBit_setBit, BitVec.shiftLeft_add, Nat.succ_ne_zero, if_false]

/-- Every cycle of a dwell in which a slot's pin is low. -/
theorem DwellsAt.whileLow {i : Instr} {lv : Nat → BitVec 32} {s : State} {o d k p n : Nat} {acc : Byte}
    (h : DwellsAt i lv s o d k (slotLow p n acc s)) (m : Nat) (hlo : o < m) (hhi : m ≤ o + d) :
    execLevels i lv m s = .next { pinDriveLow p s with
      pinIn := lv (m - 1), seq := { dwelling s.seq k (o + d - m) with mask := 1#8 <<< n, acc := acc } } := by
  rw [h m hlo hhi]
  simp only [slotLow, dwelling, State.setSeq, State.setPinIn]

/-- Every cycle of a dwell in which a slot's pin is released. -/
theorem DwellsAt.whileReleased {i : Instr} {lv : Nat → BitVec 32} {s : State} {o d k p n : Nat} {acc : Byte}
    (h : DwellsAt i lv s o d k (slotReleased p n acc s)) (m : Nat) (hlo : o < m) (hhi : m ≤ o + d) :
    execLevels i lv m s = .next { pinRelease p (pinDriveLow p s) with
      pinIn := lv (m - 1), seq := { dwelling s.seq k (o + d - m) with mask := 1#8 <<< n, acc := acc } } := by
  rw [h m hlo hhi]
  simp only [slotReleased, dwelling, State.setSeq, State.setPinIn]

/-- The state in which slot `i` begins: the one before the command, or that after the slot before; `acc n` is the byte
assembled in the first `n` slots. -/
def slotEntry (p : Nat) (acc : Nat → Byte) (s : State) : Nat → State
  | 0 => s
  | i + 1 => slotReleased p i (acc (i + 1)) s

/-- The dwells of a write slot fit the countdown (R144, R166). -/
theorem writeDwells_lt {c : Config} (hfit : c.DwellsFit) (how : c.OneWireValid) (b : Bool) :
    writeLow c b < 2 ^ 32 ∧ writeRest c b < 2 ^ 32 := by
  obtain ⟨⟨hA, hB, hC, hD, -⟩, -⟩ := how
  cases b
  · exact ⟨cyc_lt hfit hC, cyc_lt hfit hD⟩
  · exact ⟨cyc_lt hfit hA, cyc_lt hfit hB⟩

/-- The gap after a slot fits the countdown (R144). -/
theorem slotGap_lt {c : Config} (hfit : c.DwellsFit) (i : Nat) : slotGap c i < 2 ^ 32 := by
  obtain ⟨-, -, hgap⟩ := hfit
  unfold slotGap
  split
  · exact hgap
  · decide

/-! ## `OW_WRITEBYTE` (R170) -/

section

variable {s : State} (pin v : Byte) (lv : Nat → BitVec 32)

/-- The state in which slot `i` of `OW_WRITEBYTE` begins: the command assembles no byte. -/
abbrev writeEntry (p : Nat) (s : State) (i : Nat) : State := slotEntry p (fun _ => s.seq.acc) s i

/-- Slot `i` of `OW_WRITEBYTE` drives the pin low under its mask, whether it is the first slot or a later one. -/
theorem pinDriveLow_nextMask_writeEntry (p i : Nat) (s : State) :
    pinDriveLow p (nextMask i (writeEntry p s i)) = slotLow p i s.seq.acc s := by
  cases i with
  | zero => rfl
  | succ i => exact pinDriveLow_nextMask_slotReleased p i s.seq.acc s

variable (hacc : Accepted s) (hpin : pinUsable s.cfg pin = true) (hfit : s.cfg.DwellsFit) (how : s.cfg.OneWireValid)
include hacc hpin hfit how

/-- A slot of `OW_WRITEBYTE`: the pin low for the low time of its bit, released for its rest and the gap. -/
theorem owWriteByte_slot {i : Nat} (hi : i < 8)
    (h : EntersAt (.owWriteByte pin v) lv s (writeSlotStart s.cfg v i) (3 * i) (writeEntry pin.toNat s i)) :
    let L := writeLow s.cfg (v.getLsbD i)
    let R := writeRest s.cfg (v.getLsbD i)
    let o := writeSlotStart s.cfg v i
    let rel := slotReleased pin.toNat i s.seq.acc s
    DwellsAt (.owWriteByte pin v) lv s o L (3 * i) (slotLow pin.toNat i s.seq.acc s) ∧
      DwellsAt (.owWriteByte pin v) lv s (o + L) R (3 * i + 1) rel ∧
      DwellsAt (.owWriteByte pin v) lv s (o + L + R) (slotGap s.cfg i) (3 * i + 2) rel ∧
      EntersAt (.owWriteByte pin v) lv s (writeSlotStart s.cfg v (i + 1)) (3 * (i + 1)) rel := by
  intro L R o rel
  obtain ⟨hL, hR⟩ := writeDwells_lt hfit how (v.getLsbD i)
  have hbusy : s.seq.busy = true := hacc.1
  have hP : programOf s.cfg (.owWriteByte pin v) = owWriteByteProgram s.cfg pin.toNat v := onPin_usable hpin _
  have hbit : slotBit v (slotLow pin.toNat i s.seq.acc s) = v.getLsbD i := and_slotMask_ne_zero v hi
  have hdrive := pinDriveLow_nextMask_writeEntry pin.toNat i s
  have hlow : PhaseDoes (owWriteByteProgram s.cfg pin.toNat v) (3 * i) L
      ((writeEntry pin.toNat s i).setPinIn (lv o)) ((slotLow pin.toNat i s.seq.acc s).setPinIn (lv o)) := by
    have hphase := owWriteByte_low s.cfg pin.toNat ((writeEntry pin.toNat s i).setPinIn (lv o)) v hi
    have hslot : slotBit v (nextMask i ((writeEntry pin.toNat s i).setPinIn (lv o))) = v.getLsbD i :=
      (congrArg (slotBit v) hdrive).trans hbit
    rw [hslot] at hphase
    exact (congrArg (·.setPinIn (lv o)) hdrive) ▸ hphase
  have hrest : PhaseDoes (owWriteByteProgram s.cfg pin.toNat v) (3 * i + 1) R
      ((slotLow pin.toNat i s.seq.acc s).setPinIn (lv (o + L))) (rel.setPinIn (lv (o + L))) := by
    have hphase := owWriteByte_rest s.cfg pin.toNat ((slotLow pin.toNat i s.seq.acc s).setPinIn (lv (o + L))) v hi
    have hslot : slotBit v ((slotLow pin.toNat i s.seq.acc s).setPinIn (lv (o + L))) = v.getLsbD i := hbit
    rwa [hslot, pinRelease_slotLow] at hphase
  obtain ⟨d0, e1⟩ := h.phase (slotLow pin.toNat i s.seq.acc s) hP hlow (by omega) hL rfl hbusy
  obtain ⟨d1, e2⟩ := e1.phase rel hP hrest (by omega) hR rfl hbusy
  obtain ⟨d2, e3⟩ := e2.phase rel hP (owWriteByte_gap s.cfg pin.toNat _ v hi) (by omega) (slotGap_lt hfit i)
    rfl hbusy
  exact ⟨d0, d1, d2, e3⟩

/-- Slot after slot, the ninth entry being the completion. -/
theorem owWriteByte_entersAt {i : Nat} (hi : i ≤ 8) :
    EntersAt (.owWriteByte pin v) lv s (writeSlotStart s.cfg v i) (3 * i) (writeEntry pin.toNat s i) := by
  induction i with
  | zero => exact entersAt_zero hacc
  | succ i ih =>
    obtain ⟨-, -, -, hnext⟩ := owWriteByte_slot pin v lv hacc hpin hfit how hi (ih (Nat.le_of_succ_le hi))
    exact hnext

end

end Sys2Proof.Machine

namespace Sys2Proof.Claims

open Sys2Proof.Machine

/-- Settles O33: slot after slot, each in its three phases; the released pin is in the rest phase or in the gap. -/
theorem owWriteByteTrace : Obligations.OwWriteByteTrace := by
  intro s pin v lv hacc hpin hfit how c p start
  have hP : programOf s.cfg (.owWriteByte pin v) = owWriteByteProgram c p v := onPin_usable hpin _
  have enters : ∀ i, i ≤ 8 → EntersAt (.owWriteByte pin v) lv s (start i) (3 * i) (writeEntry p s i) :=
    fun i hi => owWriteByte_entersAt pin v lv hacc hpin hfit how hi
  refine ⟨fun i m hi hlo hhi => ?_, fun i m hi hlo hhi => ?_, ?_⟩
  · obtain ⟨low, -⟩ := owWriteByte_slot pin v lv hacc hpin hfit how hi (enters i (Nat.le_of_lt hi))
    exact low.whileLow m hlo hhi
  · obtain ⟨-, rest, gap, -⟩ := owWriteByte_slot pin v lv hacc hpin hfit how hi (enters i (Nat.le_of_lt hi))
    rcases Nat.lt_or_ge (start i + writeLow c (v.getLsbD i) + writeRest c (v.getLsbD i)) m with hgap | hrest
    · exact ⟨_, _, .inr rfl, gap.whileReleased m hgap hhi⟩
    · exact ⟨_, _, .inl rfl, rest.whileReleased m hlo hrest⟩
  · exact (enters 8 (Nat.le_refl 8)).done hP (owWriteByte_done c p _ v)

end Sys2Proof.Claims
end

section
/-! SUPPORT. The slots of `OW_READBYTE`, and the byte their samples assemble (41_onewire.md R172). -/

namespace Sys2Proof.Machine

/-! ## The byte the samples assemble -/

/-- The byte assembled from the first `n` slots, `level i` the level at the sample of slot `i` (R172). -/
def sampledByte (level : Nat → Bool) : Nat → Byte
  | 0 => 0
  | n + 1 => if level n then sampledByte level n ||| 1#8 <<< n else sampledByte level n

/-- A slot sets the bit of its number only. -/
theorem getLsbD_sampledByte (level : Nat → Bool) (n : Nat) {j : Nat} (hj : j < 8) :
    (sampledByte level n).getLsbD j = (decide (j < n) && level j) := by
  induction n with
  | zero => simp [sampledByte]
  | succ n ih =>
    have hmask : (1#8 <<< n).getLsbD j = decide (n = j) := by
      rw [← BitVec.twoPow_eq, BitVec.getLsbD_twoPow]
      rcases eq_or_ne n j with rfl | hne
      · simp [hj]
      · simp [hne]
    rw [sampledByte, apply_ite (BitVec.getLsbD · j), BitVec.getLsbD_or, hmask, ih]
    rcases Nat.lt_trichotomy j n with hlt | rfl | hgt
    · simp [hlt, Nat.lt_succ_of_lt hlt, Nat.ne_of_gt hlt]
    · simp
    · simp [Nat.not_lt_of_gt hgt, Nat.ne_of_lt hgt, show ¬ j < n + 1 by omega]

/-- The sample of a slot adds the slot's bit to the byte (R172). -/
theorem sampleIntoAcc_slotReleased (level : Nat → Bool) (p i : Nat) (s : State) (l : BitVec 32)
    (hlevel : l.getLsbD p = level i) :
    sampleIntoAcc p ((slotReleased p i (sampledByte level i) s).setPinIn l) =
      (slotReleased p i (sampledByte level (i + 1)) s).setPinIn l := by
  have hpad : pinSample p ((slotReleased p i (sampledByte level i) s).setPinIn l) = level i := hlevel
  rw [sampleIntoAcc, hpad, sampledByte]
  cases level i <;> rfl

/-! ## The slots -/

/-- Slot `i` of `OW_READBYTE` drives the pin low under its mask; the first one clears the byte to be assembled. -/
theorem pinDriveLow_startReadSlot (level : Nat → Bool) (p i : Nat) (s : State) :
    pinDriveLow p (startReadSlot i (slotEntry p (sampledByte level) s i)) = slotLow p i (sampledByte level i) s := by
  cases i with
  | zero => rfl
  | succ i => exact pinDriveLow_nextMask_slotReleased p i (sampledByte level (i + 1)) s

/-- The start of a read slot does not look at the pads. -/
theorem startReadSlot_setPinIn (i : Nat) (s : State) (l : BitVec 32) :
    startReadSlot i (s.setPinIn l) = (startReadSlot i s).setPinIn l := by
  cases i <;> rfl

/-- The level at the sample of slot `i` of `OW_READBYTE` (R172). -/
def readLevel (c : Config) (p : Nat) (lv : Nat → BitVec 32) (i : Nat) : Bool :=
  (lv (readSlotStart c i + cyc c c.timeA + cyc c c.timeE)).getLsbD p

/-- The slots of `OW_READBYTE` but the last are followed by the gap. -/
theorem readSlotStart_succ (c : Config) {i : Nat} (hi : i < 7) :
    readSlotStart c i + cyc c c.timeA + cyc c c.timeE + cyc c c.timeF + slotGap c i = readSlotStart c (i + 1) := by
  rw [slotGap_of_lt c hi, readSlotStart, readSlotStart, Nat.succ_mul]
  omega

section

variable {s : State} (pin : Byte) (lv : Nat → BitVec 32) (hacc : Accepted s) (hpin : pinUsable s.cfg pin = true)
  (hfit : s.cfg.DwellsFit) (how : s.cfg.OneWireValid)
include hacc hpin hfit how

/-- A slot of `OW_READBYTE`: the pin low, the pin released, the sample added to the byte, and the gap. -/
theorem owReadByte_slot {i : Nat} (hi : i < 8)
    (h : EntersAt (.owReadByte pin) lv s (readSlotStart s.cfg i) (4 * i)
      (slotEntry pin.toNat (sampledByte (readLevel s.cfg pin.toNat lv)) s i)) :
    let c := s.cfg
    let A := cyc c c.timeA
    let E := cyc c c.timeE
    let F := cyc c c.timeF
    let o := readSlotStart c i
    let acc := sampledByte (readLevel c pin.toNat lv)
    let sampled := slotReleased pin.toNat i (acc (i + 1)) s
    DwellsAt (.owReadByte pin) lv s o A (4 * i) (slotLow pin.toNat i (acc i) s) ∧
      DwellsAt (.owReadByte pin) lv s (o + A) E (4 * i + 1) (slotReleased pin.toNat i (acc i) s) ∧
      DwellsAt (.owReadByte pin) lv s (o + A + E) F (4 * i + 2) sampled ∧
      DwellsAt (.owReadByte pin) lv s (o + A + E + F) (slotGap c i) (4 * i + 3) sampled ∧
      EntersAt (.owReadByte pin) lv s (o + A + E + F + slotGap c i) (4 * (i + 1)) sampled := by
  intro c A E F o acc sampled
  obtain ⟨⟨hA, -, -, -, hE⟩, ⟨hF, -⟩, -⟩ := how
  have hbusy : s.seq.busy = true := hacc.1
  have hP : programOf s.cfg (.owReadByte pin) = owReadByteProgram c pin.toNat := onPin_usable hpin _
  have hlow : PhaseDoes (owReadByteProgram c pin.toNat) (4 * i) A ((slotEntry pin.toNat acc s i).setPinIn (lv o))
      ((slotLow pin.toNat i (acc i) s).setPinIn (lv o)) := by
    have hphase := owReadByte_low c pin.toNat ((slotEntry pin.toNat acc s i).setPinIn (lv o)) hi
    rw [startReadSlot_setPinIn] at hphase
    exact (congrArg (·.setPinIn (lv o)) (pinDriveLow_startReadSlot _ pin.toNat i s)) ▸ hphase
  have hsample : PhaseDoes (owReadByteProgram c pin.toNat) (4 * i + 2) F
      ((slotReleased pin.toNat i (acc i) s).setPinIn (lv (o + A + E))) (sampled.setPinIn (lv (o + A + E))) := by
    have hphase := owReadByte_sample c pin.toNat ((slotReleased pin.toNat i (acc i) s).setPinIn (lv (o + A + E))) hi
    have hadd : sampleIntoAcc pin.toNat ((slotReleased pin.toNat i (acc i) s).setPinIn (lv (o + A + E))) =
        sampled.setPinIn (lv (o + A + E)) := sampleIntoAcc_slotReleased _ pin.toNat i s _ rfl
    rwa [hadd] at hphase
  obtain ⟨d0, e1⟩ := h.phase (slotLow pin.toNat i (acc i) s) hP hlow (by omega) (cyc_lt hfit hA) rfl hbusy
  obtain ⟨d1, e2⟩ := e1.phase (slotReleased pin.toNat i (acc i) s) hP (owReadByte_release c pin.toNat _ hi)
    (by omega) (cyc_lt hfit hE) rfl hbusy
  obtain ⟨d2, e3⟩ := e2.phase sampled hP hsample (by omega) (cyc_lt hfit hF) rfl hbusy
  obtain ⟨d3, e4⟩ := e3.phase sampled hP (owReadByte_gap c pin.toNat _ hi) (by omega) (slotGap_lt hfit i) rfl hbusy
  exact ⟨d0, d1, d2, d3, e4⟩

/-- Slot after slot. -/
theorem owReadByte_entersAt {i : Nat} (hi : i < 8) :
    EntersAt (.owReadByte pin) lv s (readSlotStart s.cfg i) (4 * i)
      (slotEntry pin.toNat (sampledByte (readLevel s.cfg pin.toNat lv)) s i) := by
  induction i with
  | zero =>
    rw [readSlotStart, Nat.zero_mul]
    exact entersAt_zero hacc
  | succ i ih =>
    obtain ⟨-, -, -, -, hnext⟩ := owReadByte_slot pin lv hacc hpin hfit how (Nat.lt_of_succ_lt hi)
      (ih (Nat.lt_of_succ_lt hi))
    rwa [readSlotStart_succ s.cfg (Nat.lt_of_succ_lt_succ hi)] at hnext

end

end Sys2Proof.Machine

namespace Sys2Proof.Claims

open Sys2Proof.Machine

/-- Settles O34: slot after slot, each in its four phases; the byte is assembled from the levels at the samples. -/
theorem owReadByteTrace : Obligations.OwReadByteTrace := by
  intro s pin lv hacc hpin hfit how c p start A E F
  have hP : programOf s.cfg (.owReadByte pin) = owReadByteProgram c p := onPin_usable hpin _
  have hbusy : s.seq.busy = true := hacc.1
  have slot := fun i (hi : i < 8) =>
    owReadByte_slot pin lv hacc hpin hfit how hi (owReadByte_entersAt pin lv hacc hpin hfit how hi)
  refine ⟨fun i m hi hlo hhi => ?_, fun i m hi hlo hhi => ?_, fun i m hi hlo hhi => ?_,
    sampledByte (readLevel c p lv) 8, fun i hi => ?_, ?_⟩
  · obtain ⟨low, -⟩ := slot i hi
    exact ⟨_, low.whileLow m hlo hhi, hbusy, rfl⟩
  · obtain ⟨-, released, sampled, -⟩ := slot i hi
    rcases Nat.lt_or_ge (start i + A + E) m with hsampled | hreleased
    · exact ⟨_, sampled.whileReleased m hsampled hhi, hbusy⟩
    · exact ⟨_, released.whileReleased m hlo hreleased, hbusy⟩
  · obtain ⟨-, -, -, gap, -⟩ := slot i (Nat.lt_succ_of_lt hi)
    exact ⟨_, gap.whileReleased m hlo (by rwa [readSlotStart_succ c hi]), hbusy, rfl⟩
  · rw [getLsbD_sampledByte _ _ hi, decide_eq_true hi, Bool.true_and]
    rfl
  · obtain ⟨-, -, -, -, hend⟩ := slot 7 (by decide)
    rw [slotGap_last, Nat.add_zero] at hend
    exact hend.done hP (owReadByte_done c p _)

end Sys2Proof.Claims
end

section
/-! SUPPORT. The command word (30_encoding.md R100 to R111): its three fields, the must-be-zero bits of a format, the
rows of the opcode map, and the round trip between words and commands. -/

namespace Sys2Proof

/-! ## The fields of a word (R100) -/

/-- A word is its upper field followed by its lower one. -/
theorem append_extractLsb'_eq_self {m k : Nat} (x : BitVec (m + k)) : x.extractLsb' k m ++ x.extractLsb' 0 k = x :=
  (BitVec.extractLsb'_append_extractLsb'_eq_extractLsb' (Nat.zero_add k).symm).trans BitVec.extractLsb'_eq_self

/-- A word is built from its own fields. -/
theorem commandWord_fields (w : Word) : commandWord (opField w) (aField w) (bField w) = w := by
  have hupper : opField w ++ aField w = w.extractLsb' 16 16 :=
    BitVec.extractLsb'_append_extractLsb'_eq_extractLsb' rfl
  rw [commandWord, hupper]
  exact append_extractLsb'_eq_self (m := 16) (k := 16) w

/-- Words are equal exactly where their fields are. -/
theorem commandWord_inj {op op' a a' : Byte} {b b' : Half} :
    commandWord op a b = commandWord op' a' b' ↔ op = op' ∧ a = a' ∧ b = b' := by
  refine ⟨fun h => ⟨?_, ?_, ?_⟩, ?_⟩
  · simpa using congrArg opField h
  · simpa using congrArg aField h
  · simpa using congrArg bField h
  · rintro ⟨rfl, rfl, rfl⟩
    rfl

/-- A mask acts on each field by itself. -/
theorem commandWord_and (op op' a a' : Byte) (b b' : Half) :
    commandWord op a b &&& commandWord op' a' b' = commandWord (op &&& op') (a &&& a') (b &&& b') :=
  BitVec.and_append.trans (congrArg (· ++ (b &&& b')) BitVec.and_append)

/-! ## The operands in the fields (R102) -/

@[simp] theorem lowByte_append (x y : Byte) : lowByte (x ++ y) = y := BitVec.extractLsb'_append_eq_right

@[simp] theorem highByte_append (x y : Byte) : highByte (x ++ y) = x := BitVec.extractLsb'_append_eq_left

@[simp] theorem lowBit_append (x : BitVec 15) (y : BitVec 1) : lowBit (x ++ y) = y :=
  BitVec.extractLsb'_append_eq_right

@[simp] theorem slotOf_append (x : BitVec 4) (slot : BitVec 4) : slotOf (x ++ slot) = slot :=
  BitVec.extractLsb'_append_eq_right

/-- The slot of an `EVT_ONTIMER` word's field A. -/
@[simp] theorem slotOf_evtField (x unit : BitVec 2) (slot : BitVec 4) : slotOf (x ++ unit ++ slot) = slot :=
  BitVec.extractLsb'_append_eq_right

/-- The unit of an `EVT_ONTIMER` word's field A. -/
@[simp] theorem unitOf_evtField (x unit : BitVec 2) (slot : BitVec 4) : unitOf (x ++ unit ++ slot) = unit :=
  (BitVec.extractLsb'_append_eq_of_le (Nat.le_refl 4)).trans BitVec.extractLsb'_append_eq_right

/-! ## The must-be-zero bits of a format (R101) -/

/-- The upper bits of a field are 0 exactly where the field is its lower bits extended by 0. -/
theorem extractLsb'_eq_zero_iff_append {m k : Nat} (x : BitVec (m + k)) :
    x.extractLsb' k m = 0 ↔ 0#m ++ x.extractLsb' 0 k = x := by
  conv_rhs => rhs; rw [← append_extractLsb'_eq_self x]
  rw [BitVec.append_left_inj, eq_comm]
  rfl

/-- The upper bits of a field are 0 exactly where the mask of these bits leaves nothing of it. -/
theorem extractLsb'_eq_zero_iff_and {m k : Nat} (x : BitVec (m + k)) :
    x.extractLsb' k m = 0 ↔ x &&& (BitVec.allOnes m ++ 0#k) = 0 := by
  conv_rhs => lhs; rw [← append_extractLsb'_eq_self x, BitVec.and_append, BitVec.and_allOnes, BitVec.and_zero]
  rw [← BitVec.append_left_inj (0#k)]
  exact Iff.of_eq (congrArg _ BitVec.zero_append_zero)

/-- The fields A and B with the bits the format uses kept and its must-be-zero bits 0. -/
def Format.usedBits (f : Format) (a : Byte) (b : Half) : Byte × Half :=
  match f with
  | .f0 => (0, 0)
  | .fa => (a, 0)
  | .fs => (0#4 ++ slotOf a, 0)
  | .fb16 => (0, b)
  | .fb8 => (0, 0#8 ++ lowByte b)
  | .fab16 => (a, b)
  | .fab8 => (a, 0#8 ++ lowByte b)
  | .fab1 => (a, 0#15 ++ lowBit b)
  | .fevt => (0#2 ++ unitOf a ++ slotOf a, b)

/-- The masks of a format's must-be-zero bits in the fields A and B. -/
def Format.unusedMasks : Format → Byte × Half
  | .f0 => (0xFF, 0xFFFF)
  | .fa => (0, 0xFFFF)
  | .fs => (0xF0, 0xFFFF)
  | .fb16 => (0xFF, 0)
  | .fb8 => (0xFF, 0xFF00)
  | .fab16 => (0, 0)
  | .fab8 => (0, 0xFF00)
  | .fab1 => (0, 0xFFFE)
  | .fevt => (0xC0, 0)

/-- The unit and the slot of a field A are its low six bits. -/
theorem evtField_eq (a : Byte) : 0#2 ++ unitOf a ++ slotOf a = 0#2 ++ a.extractLsb' 0 6 := by
  have hlow : unitOf a ++ slotOf a = a.extractLsb' 0 6 :=
    BitVec.extractLsb'_append_extractLsb'_eq_extractLsb' rfl
  rw [← hlow, BitVec.append_assoc]
  rfl

/-- The must-be-zero bits of a format are 0 exactly where keeping only the used bits changes nothing. -/
theorem Format.unusedBitsZero_iff_usedBits (f : Format) (a : Byte) (b : Half) :
    f.unusedBitsZero a b = true ↔ f.usedBits a b = (a, b) := by
  have hslot : a.extractLsb' 4 4 = 0 ↔ 0#4 ++ slotOf a = a := extractLsb'_eq_zero_iff_append (m := 4) (k := 4) a
  have hevt : a.extractLsb' 6 2 = 0 ↔ 0#2 ++ unitOf a ++ slotOf a = a := by
    rw [evtField_eq]
    exact extractLsb'_eq_zero_iff_append (m := 2) (k := 6) a
  have hbyte : b.extractLsb' 8 8 = 0 ↔ 0#8 ++ lowByte b = b := extractLsb'_eq_zero_iff_append (m := 8) (k := 8) b
  have hbit : b.extractLsb' 1 15 = 0 ↔ 0#15 ++ lowBit b = b := extractLsb'_eq_zero_iff_append (m := 15) (k := 1) b
  cases f <;> simp only [Format.unusedBitsZero, Format.usedBits, Bool.and_eq_true, beq_iff_eq, Prod.mk.injEq, true_and,
    and_true, hslot, hevt, hbyte, hbit, eq_comm (a := (0 : Byte)), eq_comm (a := (0 : Half))]

/-- The must-be-zero bits of a format are 0 exactly where their masks leave nothing of the fields. -/
theorem Format.unusedBitsZero_iff_masks (f : Format) (a : Byte) (b : Half) :
    f.unusedBitsZero a b = true ↔ a &&& f.unusedMasks.1 = 0 ∧ b &&& f.unusedMasks.2 = 0 := by
  have hslot : a.extractLsb' 4 4 = 0 ↔ a &&& 0xF0 = 0 := extractLsb'_eq_zero_iff_and (m := 4) (k := 4) a
  have hevt : a.extractLsb' 6 2 = 0 ↔ a &&& 0xC0 = 0 := extractLsb'_eq_zero_iff_and (m := 2) (k := 6) a
  have hbyte : b.extractLsb' 8 8 = 0 ↔ b &&& 0xFF00 = 0 := extractLsb'_eq_zero_iff_and (m := 8) (k := 8) b
  have hbit : b.extractLsb' 1 15 = 0 ↔ b &&& 0xFFFE = 0 := extractLsb'_eq_zero_iff_and (m := 15) (k := 1) b
  have hwholeA : a &&& 0xFF = a := BitVec.and_allOnes
  have hwholeB : b &&& 0xFFFF = b := BitVec.and_allOnes
  have hnoneA : a &&& 0 = 0 := BitVec.and_zero
  have hnoneB : b &&& 0 = 0 := BitVec.and_zero
  cases f <;> simp only [Format.unusedBitsZero, Format.unusedMasks, Bool.and_eq_true, beq_iff_eq, true_and, and_true,
    hslot, hevt, hbyte, hbit, hwholeA, hwholeB, hnoneA, hnoneB]

/-! ## The rows of the opcode map (R105) -/

/-- No two rows have the same opcode: each is the one its opcode finds. -/
theorem rowOf_op {r : OpRow} (h : r ∈ opcodeMap) : rowOf r.op = some r := by
  unfold opcodeMap at h
  fin_cases h <;> rfl

/-- What the search for an opcode's row finds. -/
theorem rowOf_eq_some_iff {op : Byte} {r : OpRow} : rowOf op = some r ↔ r ∈ opcodeMap ∧ r.op = op := by
  refine ⟨fun h => ⟨List.mem_of_find?_eq_some h, by simpa using List.find?_some h⟩, ?_⟩
  rintro ⟨hmem, rfl⟩
  exact rowOf_op hmem

/-- A row encodes what it builds as its opcode and the used bits of the fields. -/
theorem encode_build {r : OpRow} (h : r ∈ opcodeMap) (a : Byte) (b : Half) :
    encode (r.build a b) = commandWord r.op (r.format.usedBits a b).1 (r.format.usedBits a b).2 := by
  unfold opcodeMap at h
  fin_cases h
  -- `MAN_DECODE` alone reads field B as two operands.
  on_goal 13 => exact congrArg (commandWord 0x21 0) (append_extractLsb'_eq_self (m := 8) (k := 8) b)
  all_goals rfl

/-- What the decoder answers for a legal word. -/
theorem decode_eq_ok_iff {w : Word} {i : Instr} : decode w = .ok i ↔
    ∃ r ∈ opcodeMap, r.op = opField w ∧ r.format.unusedBitsZero (aField w) (bField w) = true ∧
      r.build (aField w) (bField w) = i := by
  unfold decode
  constructor
  · intro h
    split at h
    · cases h
    · rename_i r hrow
      obtain ⟨hmem, hop⟩ := rowOf_eq_some_iff.1 hrow
      split at h
      · exact ⟨r, hmem, hop, ‹_›, Except.ok.inj h⟩
      · cases h
  · rintro ⟨r, hmem, hop, hzero, rfl⟩
    rw [rowOf_eq_some_iff.2 ⟨hmem, hop⟩]
    exact if_pos hzero

/-- The word built from a row's opcode and fields decodes to what the row builds. -/
theorem decode_commandWord {op a : Byte} {b : Half} {r : OpRow} {i : Instr} (hrow : rowOf op = some r)
    (hzero : r.format.unusedBitsZero a b = true) (hbuild : r.build a b = i) :
    decode (commandWord op a b) = .ok i := by
  obtain ⟨hmem, hop⟩ := rowOf_eq_some_iff.1 hrow
  refine decode_eq_ok_iff.2 ⟨r, hmem, ?_⟩
  rw [opField_commandWord, aField_commandWord, bField_commandWord]
  exact ⟨hop, hzero, hbuild⟩

/-- The legal words: a row's opcode, with the must-be-zero bits of its format 0 (R110). -/
theorem legalWord_iff {w : Word} : legalWord w = true ↔
    ∃ r ∈ opcodeMap, r.op = opField w ∧ r.format.unusedBitsZero (aField w) (bField w) = true := by
  have hdecodes : legalWord w = true ↔ ∃ i, decode w = .ok i := by
    unfold legalWord
    cases decode w <;> simp
  simp only [hdecodes, decode_eq_ok_iff]
  exact ⟨fun ⟨_, r, hmem, hop, hzero, _⟩ => ⟨r, hmem, hop, hzero⟩,
    fun ⟨r, hmem, hop, hzero⟩ => ⟨_, r, hmem, hop, hzero, rfl⟩⟩

/-- A row as (match, mask): its opcode, and every opcode bit and must-be-zero bit. -/
def OpRow.pattern (r : OpRow) : Word × Word :=
  (commandWord r.op 0 0, commandWord 0xFF r.format.unusedMasks.1 r.format.unusedMasks.2)

/-- The patterns are the rows of the opcode map, in its order. -/
theorem commandPatterns_eq : Machine.commandPatterns = opcodeMap.map OpRow.pattern := by decide

/-- A word matches a row's pattern exactly where it has the row's opcode and its must-be-zero bits are 0. -/
theorem and_pattern_eq_iff (w : Word) (r : OpRow) : w &&& r.pattern.2 = r.pattern.1 ↔
    r.op = opField w ∧ r.format.unusedBitsZero (aField w) (bField w) = true := by
  have hop : opField w &&& 0xFF = opField w := BitVec.and_allOnes
  rw [← commandWord_fields w, OpRow.pattern, commandWord_and, commandWord_inj, commandWord_fields, hop,
    Format.unusedBitsZero_iff_masks, eq_comm]

/-! ## The round trip (R100 to R102, R105) -/

/-- The word of a command decodes to that command: a command without operands, one whose operands fill their fields,
and one with an operand narrower than its field. -/
theorem decode_encode (i : Instr) : decode (encode i) = .ok i := by
  cases i with
  | nop | millisInit | millis | micros | rfBegin | rfComplete | rfGetMsg | rfStop => rfl
  | delayUs _ | delayMs _ | owReset _ | owReadBit _ | owReadByte _ | rfInit _ _ => exact decode_commandWord rfl rfl rfl
  | manEncode _ | manNibbler _ | manDecode _ _ | rfBeginBytes _ | rfRdBuf _ | owWriteByte _ _ | owWriteBit _ _
  | evtOnTimer _ _ _ | evtRelease _ =>
    exact decode_commandWord rfl (by simp [Format.unusedBitsZero_iff_usedBits, Format.usedBits]) (by simp)

/-- A legal word is the word of the command it decodes to. -/
theorem encode_of_decode {w : Word} {i : Instr} (h : decode w = .ok i) : encode i = w := by
  obtain ⟨r, hmem, hop, hzero, rfl⟩ := decode_eq_ok_iff.1 h
  rw [encode_build hmem, (r.format.unusedBitsZero_iff_usedBits _ _).1 hzero, hop, commandWord_fields]

end Sys2Proof
namespace Sys2Proof.Machine

/-! ## A write to CMD (R103, R104, R110) -/

section

variable {s : State} (w : Word)

/-- A write to CMD while busy is dropped (R104). -/
theorem regWrite_cmd_busy (hbusy : s.seq.busy = true) : regWrite 0 w s = raiseOvr s := if_pos hbusy

/-- A legal word written to CMD while idle is accepted (R103). -/
theorem regWrite_cmd_legal (hidle : s.seq.busy = false) (hlegal : legalWord w = true) :
    regWrite 0 w s = acceptCommand w s := by
  show writeCmd w s = _
  rw [writeCmd, hidle, hlegal]
  rfl

/-- An illegal word written to CMD while idle raises ILL (R110). -/
theorem regWrite_cmd_illegal (hidle : s.seq.busy = false) (hillegal : legalWord w = false) :
    regWrite 0 w s = raiseIll s := by
  show writeCmd w s = _
  rw [writeCmd, hidle, hillegal]
  rfl

end

/-- Every handler keeps RESULT (60_exceptions.md R295). -/
theorem handlerOf_result {src : IntSource} {s t : State} (h : handlerOf src s = .ok t) : t.result = s.result := by
  cases src with
  | tick => cases h; rfl
  | rf =>
    obtain ⟨r, m, st, rfl⟩ := rfHandler_frame h
    rfl
  | evt k =>
    cases h
    rcases evtHandler_cases k s with ⟨-, he⟩ | ⟨-, he⟩ <;> rw [he] <;> rfl

/-- INT's dispatch keeps RESULT (60_exceptions.md R295). -/
theorem intDispatch_result {s t : State} (h : intDispatch s = .ok t) : t.result = s.result := by
  rcases intDispatch_cases h with rfl | ⟨src, u, -, -, hu, rfl⟩
  · rfl
  · rw [State.setIsrBusy_result, handlerOf_result hu, clearPending_frame, State.setIntcon_result]

/-- A cycle in which SEQ was idle at the start leaves SEQ and RESULT as the host's access does
(70_reset_and_hazards.md R330). -/
theorem step_of_idle {s t : State} (hrst : (nextInput s).rst = false) (hidle : s.seq.busy = false)
    (h : step s = .next t) :
    t.seq = (hostAccess (nextInput s).host (beginCycle (nextInput s) s)).seq ∧ t.result = s.result := by
  obtain ⟨s1, h1, rfl | ⟨hbusy, -⟩⟩ := step_after_int hrst h
  · obtain ⟨q, st, ic, cb, rd, he⟩ := hostAccess_frame (nextInput s).host (beginCycle (nextInput s) s)
    refine ⟨(intDispatch_seq h1).trans (timersStep_seq _), (intDispatch_result h1).trans ?_⟩
    rw [timersStep_result, he]
    rfl
  · rw [hidle] at hbusy
    cases hbusy

/-! ## Refused operands (R112) -/

/-- A refused command completes in its first cycle with ARGERR and its refusal result, and changes nothing else. -/
theorem exec_refused {i : Instr} {s : State} {r : Word} (hP : programOf s.cfg i = refusedProgram r) (h : Accepted s) :
    exec i s = .next { s with
      result := r, status := { s.status with argErr := true }, seq := completed s.seq 1 } := by
  have hphase : PhaseDoes (refusedProgram r) 0 0 s ((raiseArgErr s).setResult r) :=
    phaseDoes Nat.one_pos (by decide) rfl rfl
  have hdone : enterAt (refusedProgram r) 1 ((raiseArgErr s).setResult r) =
      .ok { (raiseArgErr s).setResult r with result := r, seq := completed s.seq 1 } := enterAt_done rfl rfl
  rw [exec_accepted hP h, hphase.fall rfl, hdone]
  rfl

section

variable {c : Config}

/-- A one-wire command on a pin that does not exist is refused (41_onewire.md R163). -/
theorem onPin_refused {pin : Byte} (h : c.npins ≤ pin.toNat) (P : MicroProgram) :
    onPin c pin P = refusedProgram argRefused :=
  if_neg (by simpa [pinUsable] using h)

/-- The slot operands the EVT commands cannot use. -/
theorem slotUsable_eq_false {slot : BitVec 4} (h : c.nEvt ≤ slot.toNat) : slotUsable c slot = false := by
  simpa [slotUsable] using h

/-- The operands `RF_INIT` cannot use (43_rf433.md R211). -/
theorem rfInitUsable_eq_false {pin : Byte} {baud : Half}
    (h : c.npins ≤ pin.toNat ∨ baud = 0 ∨ rfTickCycles c baud = 0 ∨
      (timerFit c (rfTickCycles c baud)).fits = false) :
    rfInitUsable c pin baud = false := by
  rcases h with h | h | h | h <;> simp [rfInitUsable, pinUsable, h]

/-- The byte counts `RF_BEGIN_BYTES` cannot use (43_rf433.md R214). -/
theorem maxBytesUsable_eq_false {m : Byte} (h : m = 0 ∨ c.rfBufCap < m.toNat) : maxBytesUsable c m = false := by
  rw [maxBytesUsable, decide_eq_false_iff_not]
  rintro ⟨hpos, hcap⟩
  exact h.elim hpos (Nat.not_lt.2 hcap)

end

end Sys2Proof.Machine

namespace Sys2Proof.Claims

open Sys2Proof.Machine

/-- Settles O2: both ways through the row of the opcode map that the word's opcode finds. -/
theorem decodeEncodeAgree : Obligations.DecodeEncodeAgree :=
  ⟨decode_encode, fun _ _ => encode_of_decode⟩

/-- Settles O3: the patterns are the rows of the opcode map, and a word is legal where it matches one. -/
theorem illegalWord : Obligations.IllegalWord := by
  refine ⟨fun w => ?_, fun s w hidle hillegal => regWrite_cmd_illegal w hidle hillegal⟩
  rw [← Bool.not_eq_true, legalWord_iff, commandPatterns_eq]
  simp only [List.forall_mem_map, ne_eq, and_pattern_eq_iff]
  exact not_exists.trans (forall_congr' fun r => not_and)

/-- Settles O1: each example word decodes to its call, so it is the word its call encodes to. -/
theorem exampleWords : Obligations.ExampleWords := by
  refine ⟨fun x hx => ?_, rfl, rfl, rfl⟩
  have hdecode : decode x.2 = .ok x.1 := by
    revert x
    decide
  exact ⟨hdecode, encode_of_decode hdecode⟩

/-- Settles O4: SEQ was idle at the start of the cycle, so it does not step, and nothing after the host's access writes
SEQ or RESULT. -/
theorem acceptedCommand : Obligations.AcceptedCommand := by
  refine ⟨fun s w hidle hlegal => regWrite_cmd_legal w hidle hlegal, fun s t w hrst hhost hidle hlegal h => ?_⟩
  obtain ⟨hseq, hresult⟩ := step_of_idle hrst hidle h
  have haccess : hostAccess (nextInput s).host (beginCycle (nextInput s) s) =
      acceptCommand w (beginCycle (nextInput s) s) := by
    rw [hhost]
    exact regWrite_cmd_legal w hidle hlegal
  rw [haccess] at hseq
  exact ⟨hseq, hresult⟩

/-- Settles O5: a write to CMD while busy is dropped with OVR. -/
theorem writeWhileBusy : Obligations.WriteWhileBusy :=
  fun _ w hbusy => regWrite_cmd_busy w hbusy

/-- Settles O35: on operands it cannot use, each command's micro-program is the refused one. -/
theorem refusedOperands : Obligations.RefusedOperands := by
  intro s hacc
  refine ⟨fun pin hpin => ?_, fun pin baud h => ?_, fun m h => ?_, fun i h => ?_, fun slot u d h => ?_,
    fun slot h => ?_⟩
  · exact ⟨exec_refused (onPin_refused hpin _) hacc, exec_refused (onPin_refused hpin _) hacc,
      fun b => exec_refused (onPin_refused hpin _) hacc, exec_refused (onPin_refused hpin _) hacc,
      fun v => exec_refused (onPin_refused hpin _) hacc⟩
  · exact exec_refused (if_neg (ne_true_of_eq_false (rfInitUsable_eq_false h))) hacc
  · exact exec_refused (if_neg (ne_true_of_eq_false (maxBytesUsable_eq_false h))) hacc
  · exact exec_refused (if_neg (Nat.not_lt.2 h)) hacc
  · refine exec_refused (if_neg ?_) hacc
    rcases h with hslot | rfl
    · simp [slotUsable_eq_false hslot]
    · simp
  · exact exec_refused (if_neg (ne_true_of_eq_false (slotUsable_eq_false h))) hacc

end Sys2Proof.Claims
end

section
/-! SUPPORT. The immediate commands of unit TICK (40_tick_delay.md R130 to R133). -/

namespace Sys2Proof.Machine

/-- An immediate command completes in its first cycle, in the state its action leaves (10_state.md R25). -/
theorem exec_immediate {i : Instr} {act : State → Except Fault State} {s t : State}
    (hP : programOf s.cfg i = immediate act) (h : Accepted s) (hact : act (atPhase s 0) = .ok (atPhase t 0)) :
    exec i s = .next { t with seq := completed t.seq 1 } := by
  have hphase : PhaseDoes (immediate act) 0 0 s t := phaseDoes Nat.one_pos (by decide) hact rfl
  have hdone : enterAt (immediate act) 1 t = .ok { t with seq := completed t.seq 1 } :=
    enterAt_done (r := t.result) rfl rfl
  rw [exec_accepted hP h, hphase.fall rfl, hdone]
  rfl

/-- The value of `MICROS` is cut to the width of RESULT (R133). -/
theorem microsValue_eq_mod (s : State) : microsValue s = BitVec.ofNat 32
    ((s.tick.toNat * 1000 + s.tt.tmr.toNat * 1000 / (s.tt.pr.toNat + 1)) % 2 ^ 32) :=
  BitVec.eq_of_toNat_eq (by rw [microsValue, BitVec.toNat_ofNat, BitVec.toNat_ofNat, Nat.mod_mod])

end Sys2Proof.Machine

namespace Sys2Proof.Claims

open Sys2Proof.Machine

/-- Settles O22: each of the three is an immediate command whose action writes RESULT alone. -/
theorem tickReads : Obligations.TickReads := by
  intro s h
  refine ⟨exec_immediate_setResult rfl h, exec_immediate (t := s.setResult s.tick) rfl h rfl, ?_⟩
  rw [← microsValue_eq_mod]
  exact exec_immediate (t := s.setResult (microsValue s)) rfl h rfl

/-- Settles O23: an immediate command whose action is the one R131 states. -/
theorem millisInit : Obligations.MillisInit :=
  fun s h => exec_immediate (t := millisInitAction s) rfl h rfl

end Sys2Proof.Claims
end

section
/-! SUPPORT. The delays cycle by cycle, none of them held (40_tick_delay.md R141, R142). -/

namespace Sys2Proof.Machine

/-! ## The cycles of a command with nothing else in the block moving -/

/-- A command's cycle keeps the parameters, the coming inputs and the pads. -/
theorem exec_fixed {i : Instr} {s t : State} (h : exec i s = .next t) :
    t.cfg = s.cfg ∧ t.inputs = s.inputs ∧ t.pinIn = s.pinIn := by
  have hview : (t.cfg, t.inputs, t.pinIn) = (s.cfg, s.inputs, s.pinIn) :=
    exec_keeps_view (fun u => (u.cfg, u.inputs, u.pinIn)) h fun u v he => by
      have hfixed := he.fixed
      simp only [Prod.mk.injEq] at hfixed ⊢
      obtain ⟨hcfg, -, hinputs, -, hpins, -⟩ := hfixed
      exact ⟨hcfg, hinputs, hpins⟩
  simpa only [Prod.mk.injEq] using hview

/-- A command's cycles keep the parameters, the pads and the command's own word. -/
theorem execTimes_fixed {i : Instr} {s : State} {n : Nat} :
    ∀ {t : State}, execTimes i n s = .next t → t.cfg = s.cfg ∧ t.pinIn = s.pinIn ∧ t.seq.cmd = s.seq.cmd := by
  induction n with
  | zero => rintro t ⟨⟩; exact ⟨rfl, rfl, rfl⟩
  | succ n ih =>
    intro t h
    rw [execTimes] at h
    split at h
    · rename_i u hu
      obtain ⟨hcfg, hpins, hcmd⟩ := ih hu
      obtain ⟨htcfg, -, htpins⟩ := exec_fixed h
      exact ⟨htcfg.trans hcfg, htpins.trans hpins, (exec_cmd h).trans hcmd⟩
    · cases h
    · cases h

/-- With nothing else in the block moving, the pads keep the levels they have. -/
theorem execTimes_eq_execLevels (i : Instr) (s : State) (n : Nat) :
    execTimes i n s = execLevels i (fun _ => s.pinIn) n s := by
  induction n with
  | zero => rfl
  | succ n ih =>
    rw [execTimes, execLevels, ← ih]
    cases h : execTimes i n s with
    | next t =>
      obtain ⟨-, hpins, -⟩ := execTimes_fixed h
      exact congrArg (exec i) (congrArg t.setPinIn hpins : t.setPinIn t.pinIn = _)
    | fault f => rfl
    | refused r => rfl

/-- The dwell of a phase that the command enters with nothing changed but SEQ. -/
theorem DwellsAt.execTimes_eq {i : Instr} {s : State} {o d k : Nat} (h : DwellsAt i (fun _ => s.pinIn) s o d k s)
    {m : Nat} (hlo : o < m) (hhi : m ≤ o + d) :
    execTimes i m s = .next { s with seq := dwelling s.seq k (o + d - m) } :=
  (execTimes_eq_execLevels i s m).trans (h m hlo hhi)

/-! ## The phases of the delays, one after the other -/

/-- Each of the cycles `1` to `n * T` lies in one of `n` periods of `T` cycles. -/
theorem exists_period_of_le_mul {m n T : Nat} (hlo : 0 < m) (hhi : m ≤ n * T) :
    ∃ k, k < n ∧ k * T < m ∧ m ≤ k * T + T := by
  have hpos : 0 < T := Nat.pos_of_mul_pos_left (Nat.lt_of_lt_of_le hlo hhi)
  have hstart := Nat.div_mul_le_self (m - 1) T
  have hend := Nat.lt_div_mul_add hpos (a := m - 1)
  exact ⟨(m - 1) / T, (Nat.div_lt_iff_lt_mul hpos).2 (by omega), by omega, by omega⟩

section

variable {s : State} (n : Half) (hacc : Accepted s) (hfit : s.cfg.DwellsFit)

include hacc hfit

/-- `DELAYUS` dwells for `cyc(n)` cycles and completes in the next (R141, R350). -/
theorem delayUs_trace :
    DwellsAt (.delayUs n) (fun _ => s.pinIn) s 0 (cyc s.cfg n.toNat) 0 s ∧
      execTimes (.delayUs n) (cyc s.cfg n.toNat + 1) s = .next { s with result := 0, seq := completed s.seq 1 } := by
  have hP : programOf s.cfg (.delayUs n) = delayUsProgram s.cfg n := rfl
  obtain ⟨dwells, enters⟩ := (entersAt_zero hacc).phase s hP (delayUs_phase s.cfg n _) (by decide)
    (cyc_lt hfit (Nat.le_of_lt_succ n.isLt)) rfl hacc.1
  rw [Nat.zero_add] at enters
  rw [execTimes_eq_execLevels]
  exact ⟨dwells, enters.done hP (delayUs_done s.cfg n _)⟩

/-- The `k`-th millisecond of `DELAYMS`: the overhead, then the wait, then the next millisecond (R142). -/
theorem delayMs_millisecond {lv : Nat → BitVec 32} {o k : Nat} (hk : k < n.toNat)
    (h : EntersAt (.delayMs n) lv s o (2 * k) s) :
    DwellsAt (.delayMs n) lv s o s.cfg.dlyMsOvh (2 * k) s ∧
      DwellsAt (.delayMs n) lv s (o + s.cfg.dlyMsOvh) (cyc s.cfg 1000) (2 * k + 1) s ∧
      EntersAt (.delayMs n) lv s (o + (s.cfg.dlyMsOvh + cyc s.cfg 1000)) (2 * (k + 1)) s := by
  have hn : n.toNat < 65536 := n.isLt
  have hP : programOf s.cfg (.delayMs n) = delayMsProgram s.cfg n := rfl
  have ⟨_, hovh, _⟩ := hfit
  obtain ⟨overhead, odd⟩ := h.phase s hP (delayMs_even s.cfg n _ hk) (by omega) hovh rfl hacc.1
  obtain ⟨wait, next⟩ := odd.phase s hP (delayMs_odd s.cfg n _ hk) (by omega) (cyc_lt hfit (by decide)) rfl hacc.1
  rw [Nat.add_assoc] at next
  exact ⟨overhead, wait, next⟩

/-- `DELAYMS` enters its `k`-th millisecond after `k` times the time of one (R142). -/
theorem delayMs_entersAt (lv : Nat → BitVec 32) {k : Nat} (hk : k ≤ n.toNat) :
    EntersAt (.delayMs n) lv s (k * (s.cfg.dlyMsOvh + cyc s.cfg 1000)) (2 * k) s := by
  induction k with
  | zero => rw [Nat.zero_mul]; exact entersAt_zero hacc
  | succ k ih =>
    obtain ⟨-, -, next⟩ := delayMs_millisecond n hacc hfit hk (ih (Nat.le_of_succ_le hk))
    rwa [Nat.succ_mul]

/-- `DELAYMS` is busy, with nothing changed but SEQ, for `n` times the time of one millisecond (R142, R350). -/
theorem delayMs_busy {m : Nat} (hlo : 0 < m) (hhi : m ≤ n.toNat * (s.cfg.dlyMsOvh + cyc s.cfg 1000)) :
    ∃ q, execTimes (.delayMs n) m s = .next { s with seq := q } ∧ q.busy = true := by
  obtain ⟨k, hkn, hafter, hbefore⟩ := exists_period_of_le_mul hlo hhi
  have enters := delayMs_entersAt n hacc hfit (fun _ => s.pinIn) (Nat.le_of_lt hkn)
  obtain ⟨overhead, wait, -⟩ := delayMs_millisecond n hacc hfit hkn enters
  by_cases hm : m ≤ k * (s.cfg.dlyMsOvh + cyc s.cfg 1000) + s.cfg.dlyMsOvh
  · exact ⟨_, overhead.execTimes_eq hafter hm, hacc.1⟩
  · exact ⟨_, wait.execTimes_eq (Nat.lt_of_not_le hm) (by omega), hacc.1⟩

end

end Sys2Proof.Machine

namespace Sys2Proof.Claims

open Sys2Proof.Machine

/-- Settles O25: one phase, whose dwell fits the countdown. -/
theorem delayUsDuration : Obligations.DelayUsDuration := by
  intro s n hacc hfit
  obtain ⟨dwells, done⟩ := delayUs_trace n hacc hfit
  refine ⟨fun m hlo hhi => ?_, done⟩
  rw [dwells.execTimes_eq hlo (by omega), Nat.zero_add]

/-- Settles O26: each millisecond takes the same time, and the last one ends in the completion. -/
theorem delayMsDuration : Obligations.DelayMsDuration := by
  intro s n hacc hfit
  refine ⟨fun m hlo hhi => delayMs_busy n hacc hfit hlo hhi, ?_⟩
  rw [execTimes_eq_execLevels]
  exact (delayMs_entersAt n hacc hfit _ (Nat.le_refl _)).done rfl (delayMs_done s.cfg n _)

end Sys2Proof.Claims
end

section
/-! SUPPORT. The delays under whole clock cycles, whatever the host, the pins and the interrupts do: a clock cycle takes
a command that only waits on by one of its own cycles at most (40_tick_delay.md R143, 70_reset_and_hazards.md R345). -/

namespace Sys2Proof.Machine

/-! ## What a clock cycle with a command in progress leaves (70_reset_and_hazards.md R330) -/

/-- A handler writes `tick`, the receiver, the EVT slots, STATUS and the callback ports at most
(60_exceptions.md R296 to R298). -/
theorem handlerOf_frame {src : IntSource} {s t : State} (h : handlerOf src s = .ok t) : ∃ tk r m st es cb,
    t = { s with tick := tk, rf := r, buf := m, status := st, evt := es, callback := cb } := by
  cases src with
  | tick => cases h; exact ⟨_, _, _, _, _, _, rfl⟩
  | rf =>
    obtain ⟨r, m, st, rfl⟩ := rfHandler_frame h
    exact ⟨_, _, _, _, _, _, rfl⟩
  | evt k =>
    cases h
    rcases evtHandler_cases k s with ⟨-, he⟩ | ⟨-, he⟩ <;> rw [he] <;> exact ⟨_, _, _, _, _, _, rfl⟩

/-- INT's dispatch keeps the parameters and the coming inputs (60_exceptions.md R295). -/
theorem intDispatch_cfg_inputs {s t : State} (h : intDispatch s = .ok t) : t.cfg = s.cfg ∧ t.inputs = s.inputs := by
  rcases intDispatch_cases h with rfl | ⟨src, u, -, -, hu, rfl⟩
  · exact ⟨rfl, rfl⟩
  · obtain ⟨tk, r, m, st, es, cb, rfl⟩ := handlerOf_frame hu
    rw [clearPending_frame]
    exact ⟨rfl, rfl⟩

/-- Up to INT's dispatch a cycle keeps the parameters and takes its input off the list. -/
theorem beforeSeq_cfg_inputs {s s1 : State} (h : beforeSeq s = .ok s1) :
    s1.cfg = s.cfg ∧ s1.inputs = s.inputs.tail := by
  obtain ⟨hcfg, hinputs⟩ := intDispatch_cfg_inputs h
  obtain ⟨q, st, ic, cb, rd, he⟩ := hostAccess_frame (nextInput s).host (beginCycle (nextInput s) s)
  rw [timersStep_cfg, he] at hcfg
  rw [timersStep_inputs, he] at hinputs
  exact ⟨hcfg, hinputs⟩

/-- A cycle with a command in progress leaves SEQ as it was, held, or as one cycle of the command leaves it
(60_exceptions.md R295). -/
theorem step_of_busy {s t : State} {i : Instr} (hrst : (nextInput s).rst = false) (hb : s.seq.busy = true)
    (hi : decode s.seq.cmd = .ok i) (h : step s = .next t) :
    t.cfg = s.cfg ∧ t.inputs = s.inputs.tail ∧
      (t.seq = s.seq ∨ ∃ u v, u.cfg = s.cfg ∧ u.seq = s.seq ∧ exec i u = .next v ∧ t.seq = v.seq) := by
  obtain ⟨s1, h1, hend⟩ := step_after_int hrst h
  obtain ⟨hcfg, hinputs⟩ := beforeSeq_cfg_inputs h1
  have hseq := beforeSeq_seq_of_busy h1 hb
  rcases hend with rfl | ⟨-, j, v, hj, hv, rfl⟩
  · exact ⟨hcfg, hinputs, .inl hseq⟩
  · obtain rfl : i = j := Except.ok.inj (hi.symm.trans hj)
    obtain ⟨hvcfg, hvinputs, -⟩ := exec_fixed hv
    exact ⟨hvcfg.trans hcfg, hvinputs.trans hinputs, .inr ⟨isrCountdown s1, v, hcfg, hseq, hv, rfl⟩⟩

/-! ## Commands that only wait -/

/-- A micro-program that does nothing but wait: its phases' dwells do not depend on the state, and only its completion
writes anything, which is not SEQ. -/
structure OnlyWaits (P : MicroProgram) : Prop where
  action : ∀ k s, P.action k s = .ok s
  dwell : ∀ k s t, P.dwell k s = P.dwell k t
  finish : ∀ s, (P.finish s).seq = s.seq

/-- `DELAYUS` only waits (R141). -/
theorem delayUs_onlyWaits (c : Config) (n : Half) : OnlyWaits (delayUsProgram c n) :=
  ⟨fun _ _ => rfl, fun _ _ _ => rfl, fun _ => rfl⟩

/-- `DELAYMS` only waits (R142). -/
theorem delayMs_onlyWaits (c : Config) (n : Half) : OnlyWaits (delayMsProgram c n) :=
  ⟨fun _ _ => rfl, fun _ _ _ => rfl, fun _ => rfl⟩

namespace OnlyWaits

variable {P : MicroProgram}

/-- The entry of the phases of a wait moves SEQ by what SEQ holds alone. -/
theorem enterPhases_seq (hP : OnlyWaits P) (r : Nat) : ∀ {s u : State}, s.seq = u.seq →
    (enterPhases P r s).map State.seq = (enterPhases P r u).map State.seq := by
  induction r with
  | zero =>
    intro s u h
    simp only [enterPhases, completeCommand, Except.map, State.setSeq_seq, hP.finish, h]
  | succ r ih =>
    intro s u h
    simp only [enterPhases, hP.action, h, hP.dwell u.seq.phase.toNat s u]
    split
    · exact ih rfl
    · rfl

/-- A cycle of SEQ on a wait moves SEQ by what SEQ holds alone. -/
theorem seqStep_seq (hP : OnlyWaits P) {s u : State} (h : s.seq = u.seq) :
    (seqStep P s).map State.seq = (seqStep P u).map State.seq := by
  simp only [seqStep, h]
  split
  · split
    · exact hP.enterPhases_seq _ rfl
    · split
      · exact hP.enterPhases_seq _ rfl
      · rfl
  · exact congrArg Except.ok h

/-- The cycle of a command that only waits moves SEQ by the parameters and what SEQ holds alone. -/
theorem exec_seq {i : Instr} {s u v : State} (hP : OnlyWaits (programOf s.cfg i)) (hcfg : u.cfg = s.cfg)
    (hseq : u.seq = s.seq) (h : exec i u = .next v) : ∃ t, exec i s = .next t ∧ t.seq = v.seq := by
  have hmap := hP.seqStep_seq hseq
  rw [← hcfg, exec_next.1 h, hcfg] at hmap
  cases hs : seqStep (programOf s.cfg i) s with
  | ok t => rw [hs] at hmap; exact ⟨t, exec_next.2 hs, (Except.ok.inj hmap).symm⟩
  | error f => rw [hs] at hmap; cases hmap

end OnlyWaits

/-! ## Clock cycles against cycles of the command -/

/-- In `t` the command's SEQ stands as `j` cycles of it, none of them held, leave it from `s` on. -/
def StandsAt (i : Instr) (s : State) (j : Nat) (t : State) : Prop :=
  ∃ x, execTimes i j s = .next x ∧ t.cfg = x.cfg ∧ t.seq = x.seq

/-- For `N` cycles, none of them held, the command is in progress. -/
def BusyFor (i : Instr) (s : State) (N : Nat) : Prop :=
  ∀ j ≤ N, ∃ q, execTimes i j s = .next { s with seq := q } ∧ q.busy = true

/-- Within the cycles of a `BusyFor` the command is in progress. -/
theorem StandsAt.busy {i : Instr} {s t : State} {j N : Nat} (h : StandsAt i s j t) (hbusy : BusyFor i s N)
    (hj : j ≤ N) : t.seq.busy = true := by
  obtain ⟨x, hx, -, hseq⟩ := h
  obtain ⟨q, hq, hb⟩ := hbusy j hj
  obtain rfl : x = { s with seq := q } := Host.Outcome.next.inj (hx.symm.trans hq)
  rw [hseq]
  exact hb

/-- A clock cycle moves a command that only waits by one of its cycles at most. -/
theorem StandsAt.after_step {i : Instr} {s t u : State} {j : Nat} (h : StandsAt i s j t) (hi : decode s.seq.cmd = .ok i)
    (hP : ∀ c, OnlyWaits (programOf c i)) (hb : t.seq.busy = true) (hrst : (nextInput t).rst = false)
    (hstep : step t = .next u) : u.inputs = t.inputs.tail ∧ ∃ j' ≤ j + 1, StandsAt i s j' u := by
  obtain ⟨x, hx, hcfg, hseq⟩ := h
  obtain ⟨-, -, hcmd⟩ := execTimes_fixed hx
  have hdecode : decode t.seq.cmd = .ok i := by rw [hseq, hcmd, hi]
  obtain ⟨hucfg, huinputs, hheld | ⟨w, v, hwcfg, hwseq, hv, huseq⟩⟩ := step_of_busy hrst hb hdecode hstep
  · exact ⟨huinputs, j, Nat.le_succ j, x, hx, hucfg.trans hcfg, hheld.trans hseq⟩
  · obtain ⟨y, hy, hyseq⟩ := (hP x.cfg).exec_seq (hwcfg.trans hcfg) (hwseq.trans hseq) hv
    obtain ⟨hycfg, -⟩ := exec_fixed hy
    exact ⟨huinputs, j + 1, Nat.le_refl _, y, by rw [execTimes, hx]; exact hy,
      hucfg.trans (hcfg.trans hycfg.symm), huseq.trans hyseq.symm⟩

/-- The inputs without reset, from a list whose first `m + 1` elements have none (log 2: past its end there is none). -/
theorem inputs_without_reset {t : State} {m : Nat} (h : ∀ x ∈ t.inputs.take (m + 1), x.rst = false) :
    (nextInput t).rst = false ∧ ∀ x ∈ t.inputs.tail.take m, x.rst = false := by
  unfold nextInput
  cases hl : t.inputs with
  | nil => exact ⟨rfl, fun x hx => absurd hx (by simp)⟩
  | cons y l =>
    rw [hl, List.take_succ_cons] at h
    exact ⟨h y List.mem_cons_self, fun x hx => h x (List.mem_cons_of_mem y hx)⟩

/-- In `m` clock cycles without reset a command that only waits does `m` of its own cycles at most. -/
theorem StandsAt.after_stepTimes {i : Instr} {s u : State} {N : Nat} (hi : decode s.seq.cmd = .ok i)
    (hP : ∀ c, OnlyWaits (programOf c i)) (hbusy : BusyFor i s N) (m : Nat) : ∀ {t : State} {j : Nat},
    StandsAt i s j t → j + m ≤ N → (∀ x ∈ t.inputs.take m, x.rst = false) → stepTimes m t = .next u →
    ∃ j' ≤ j + m, StandsAt i s j' u := by
  induction m with
  | zero =>
    rintro t j h - - ⟨⟩
    exact ⟨j, Nat.le_refl j, h⟩
  | succ m ih =>
    intro t j h hN hinputs hrun
    obtain ⟨hrst, htail⟩ := inputs_without_reset hinputs
    rw [stepTimes] at hrun
    split at hrun
    · rename_i t' ht'
      obtain ⟨htinputs, j1, hj1, h1⟩ := h.after_step hi hP (h.busy hbusy (by omega)) hrst ht'
      rw [← htinputs] at htail
      obtain ⟨j2, hj2, h2⟩ := ih h1 (by omega) htail hrun
      exact ⟨j2, by omega, h2⟩
    · cases hrun
    · cases hrun

/-- A command that only waits is in progress for as many clock cycles as it would be with nothing else moving. -/
theorem BusyFor.stepTimes_busy {i : Instr} {s t : State} {N m : Nat} (hbusy : BusyFor i s N)
    (hi : decode s.seq.cmd = .ok i) (hP : ∀ c, OnlyWaits (programOf c i)) (hm : m ≤ N)
    (hinputs : ∀ x ∈ s.inputs.take m, x.rst = false) (hrun : stepTimes m s = .next t) : t.seq.busy = true := by
  have hstart : StandsAt i s 0 s := ⟨s, rfl, rfl, rfl⟩
  obtain ⟨j, hj, h⟩ := StandsAt.after_stepTimes hi hP hbusy m hstart (by omega) hinputs hrun
  exact h.busy hbusy (by omega)

section

variable {s : State} (n : Half) (hacc : Accepted s) (hfit : s.cfg.DwellsFit)

include hacc hfit

/-- `DELAYUS` is in progress from its acceptance through its `cyc(n)` cycles. -/
theorem delayUs_busyFor : BusyFor (.delayUs n) s (cyc s.cfg n.toNat) := by
  intro m hm
  obtain ⟨dwells, -⟩ := delayUs_trace n hacc hfit
  rcases Nat.eq_zero_or_pos m with rfl | hpos
  · exact ⟨s.seq, rfl, hacc.1⟩
  · exact ⟨_, dwells.execTimes_eq hpos (by omega), hacc.1⟩

/-- `DELAYMS` is in progress from its acceptance through the cycles of its `n` milliseconds. -/
theorem delayMs_busyFor : BusyFor (.delayMs n) s (n.toNat * (s.cfg.dlyMsOvh + cyc s.cfg 1000)) := by
  intro m hm
  rcases Nat.eq_zero_or_pos m with rfl | hpos
  · exact ⟨s.seq, rfl, hacc.1⟩
  · exact delayMs_busy n hacc hfit hpos hm

end

end Sys2Proof.Machine

namespace Sys2Proof.Claims

open Sys2Proof.Machine

/-- Settles O27: a delay only waits, so a clock cycle takes it on by one cycle of its own at most, and it has at least
the cycles of its microseconds or milliseconds. -/
theorem delaysAreLowerBounds : Obligations.DelaysAreLowerBounds := by
  intro s t n m hacc _ hfit hinputs hrun
  refine ⟨fun hi hm => ?_, fun hi hm => ?_⟩
  · have hcycles : n.toNat * cycPerUs s.cfg ≤ cyc s.cfg n.toNat := Nat.le_add_left _ _
    exact (delayUs_busyFor n hacc hfit).stepTimes_busy hi (fun c => delayUs_onlyWaits c n)
      (hm.trans hcycles) hinputs hrun
  · have hcycles : 1000 * cycPerUs s.cfg ≤ s.cfg.dlyMsOvh + cyc s.cfg 1000 :=
      (Nat.le_add_left _ _).trans (Nat.le_add_left _ _)
    exact (delayMs_busyFor n hacc hfit).stepTimes_busy hi (fun c => delayMs_onlyWaits c n)
      (hm.trans (Nat.mul_le_mul_left _ hcycles)) hinputs hrun

end Sys2Proof.Claims
end

section
/-! SUPPORT. The pin directions as a function of SEQ's state (41_onewire.md R175, R176): a one-wire command drives its
pin low in phases that stand alone, releases it in the phase after each of them, and ends released. -/

namespace Sys2Proof.Machine

/-! ## Where a command drives its pin low (R165 to R172) -/

/-- The command drives its pin low in phase `k`. -/
def drivesIn (i : Instr) (k : Nat) : Bool := (drivenBy i k).isSome

/-- The command drives its pin low in the phase before phase `k`. -/
def drivesBefore (i : Instr) : Nat → Bool
  | 0 => false
  | k + 1 => drivesIn i k

/-- The directions in phase `k` of a command (R176). -/
def phaseDirections (c : Config) (i : Instr) (k : Nat) : BitVec 32 :=
  match drivenBy i k with
  | some p => if p < c.npins then setBit 0 p true else 0
  | none => 0

/-- The directions while SEQ stands at `q` in a command: those of the phase entered last, if one has been. -/
def seqDirections (c : Config) (i : Instr) (q : Seq) : BitVec 32 :=
  if q.busy ∧ ¬ q.fresh then phaseDirections c i q.phase.toNat else 0

/-! Of the one-wire commands in turn (R165, R167, R166, R172, R170). -/

theorem drivesIn_owReset (pin : Byte) (k : Nat) : drivesIn (.owReset pin) k = decide (k = 1) := by
  by_cases h : k = 1 <;> simp [drivesIn, drivenBy, h]

theorem drivesIn_owReadBit (pin : Byte) (k : Nat) : drivesIn (.owReadBit pin) k = decide (k = 0) := by
  by_cases h : k = 0 <;> simp [drivesIn, drivenBy, h]

theorem drivesIn_owWriteBit (pin : Byte) (bit : BitVec 1) (k : Nat) :
    drivesIn (.owWriteBit pin bit) k = decide (k = 0) := by
  by_cases h : k = 0 <;> simp [drivesIn, drivenBy, h]

theorem drivesIn_owReadByte (pin : Byte) (k : Nat) :
    drivesIn (.owReadByte pin) k = decide (k < 32 ∧ k % 4 = 0) := by
  by_cases h : k < 32 ∧ k % 4 = 0 <;> simp [drivesIn, drivenBy, h]

theorem drivesIn_owWriteByte (pin byte : Byte) (k : Nat) :
    drivesIn (.owWriteByte pin byte) k = decide (k < 24 ∧ k % 3 = 0) := by
  by_cases h : k < 24 ∧ k % 3 = 0 <;> simp [drivesIn, drivenBy, h]

/-- The pin a command drives low is that of its operand. -/
theorem drivenBy_eq {i : Instr} {k p : Nat} (h : drivenBy i k = some p) :
    ∃ pin, owPin i = some pin ∧ p = pin.toNat := by
  cases i
  case owReset pin | owReadBit pin | owWriteBit pin bit | owReadByte pin | owWriteByte pin byte =>
    simp only [drivenBy, Option.ite_none_right_eq_some, Option.some.injEq] at h
    obtain ⟨-, rfl⟩ := h
    exact ⟨pin, rfl, rfl⟩
  all_goals cases h

/-- The phases in which a command drives its pin low stand alone. -/
theorem drivesBefore_of_drivesIn {i : Instr} {k : Nat} (h : drivesIn i k = true) : drivesBefore i k = false := by
  cases k with
  | zero => rfl
  | succ k =>
    rw [drivesBefore]
    cases i
    case owReset => simp only [drivesIn_owReset, decide_eq_true_eq, decide_eq_false_iff_not] at h ⊢; omega
    case owReadBit => simp [drivesIn_owReadBit] at h
    case owWriteBit => simp [drivesIn_owWriteBit] at h
    case owReadByte => simp only [drivesIn_owReadByte, decide_eq_true_eq, decide_eq_false_iff_not] at h ⊢; omega
    case owWriteByte => simp only [drivesIn_owWriteByte, decide_eq_true_eq, decide_eq_false_iff_not] at h ⊢; omega
    all_goals cases h

/-- A command on a pin that exists has at most 32 phases, and its last one does not drive the pin low. -/
theorem owProgram_len {c : Config} {i : Instr} {pin : Byte} (hi : owPin i = some pin) (hpin : pinUsable c pin = true) :
    (programOf c i).len ≤ 32 ∧ ∀ k, drivesIn i k = true → k + 1 < (programOf c i).len := by
  cases i <;> cases hi <;> simp only [programOf, onPin_usable hpin]
  case owReset =>
    show 4 ≤ 32 ∧ ∀ k, _ → k + 1 < 4
    simp only [drivesIn_owReset, decide_eq_true_eq]
    exact ⟨by decide, fun k hk => by omega⟩
  case owReadBit =>
    show 3 ≤ 32 ∧ ∀ k, _ → k + 1 < 3
    simp only [drivesIn_owReadBit, decide_eq_true_eq]
    exact ⟨by decide, fun k hk => by omega⟩
  case owWriteBit =>
    show 2 ≤ 32 ∧ ∀ k, _ → k + 1 < 2
    simp only [drivesIn_owWriteBit, decide_eq_true_eq]
    exact ⟨by decide, fun k hk => by omega⟩
  case owReadByte =>
    show 32 ≤ 32 ∧ ∀ k, _ → k + 1 < 32
    simp only [drivesIn_owReadByte, decide_eq_true_eq]
    exact ⟨by decide, fun k hk => by omega⟩
  case owWriteByte =>
    show 24 ≤ 32 ∧ ∀ k, _ → k + 1 < 24
    simp only [drivesIn_owWriteByte, decide_eq_true_eq]
    exact ⟨by decide, fun k hk => by omega⟩

/-! ## The action of a one-wire phase (R165 to R172) -/

/-- The mask and the byte being assembled written, and nothing else of SEQ. -/
def withByte (m a : Byte) (u : State) : State := u.setSeq { u.seq with mask := m, acc := a }

/-- What the action of phase `k` of a one-wire command on pin `p` does: it drives the pin low, or releases it after a
phase in which it was low, or leaves the pins as they are. -/
inductive OwPhase (i : Instr) (p k : Nat) (u : State) : State → Prop
  | low (m a) (h : drivesIn i k = true) : OwPhase i p k u (pinDriveLow p (withByte m a u))
  | release (h : drivesIn i k = false) (hbefore : drivesBefore i k = true) : OwPhase i p k u (pinRelease p u)
  | keep (m a) (h : drivesIn i k = false) (hbefore : drivesBefore i k = false) : OwPhase i p k u (withByte m a u)

/-- The start of a read slot writes the mask and the byte being assembled only (R172). -/
theorem startReadSlot_eq_withByte (k : Nat) (u : State) : ∃ m a, startReadSlot k u = withByte m a u := by
  unfold startReadSlot
  split <;> exact ⟨_, _, rfl⟩

/-- The sample of a read slot writes the byte being assembled only (R172). -/
theorem sampleIntoAcc_eq_withByte (p : Nat) (u : State) : ∃ m a, sampleIntoAcc p u = withByte m a u := by
  unfold sampleIntoAcc
  split <;> exact ⟨_, _, rfl⟩

/-- The action of every phase of a one-wire command on a pin that exists. -/
theorem owAction_phase {c : Config} {i : Instr} {pin : Byte} {k : Nat} {u v : State} (hi : owPin i = some pin)
    (hpin : pinUsable c pin = true) (hk : k < (programOf c i).len) (h : (programOf c i).action k u = .ok v) :
    OwPhase i pin.toNat k u v := by
  cases i <;> cases hi <;> simp only [programOf, onPin_usable hpin] at h hk
  case owReset =>
    match k, hk with
    | 0, _ => cases h; exact .keep u.seq.mask u.seq.acc rfl rfl
    | 1, _ => cases h; exact .low u.seq.mask u.seq.acc rfl
    | 2, _ => cases h; exact .release rfl rfl
    | 3, _ => cases h; exact .keep u.seq.mask _ rfl rfl
  case owReadBit =>
    match k, hk with
    | 0, _ => cases h; exact .low u.seq.mask u.seq.acc rfl
    | 1, _ => cases h; exact .release rfl rfl
    | 2, _ => cases h; exact .keep u.seq.mask _ rfl rfl
  case owWriteBit =>
    match k, hk with
    | 0, _ => cases h; exact .low u.seq.mask u.seq.acc rfl
    | 1, _ => cases h; exact .release rfl rfl
  case owReadByte =>
    have hk : k < 32 := hk
    have hin : drivesIn (.owReadByte pin) k = decide (k % 4 = 0) := by simp [drivesIn_owReadByte, hk]
    have hbefore : drivesBefore (.owReadByte pin) k = decide (k % 4 = 1) := by
      cases k with
      | zero => rfl
      | succ k => rw [drivesBefore, drivesIn_owReadByte, decide_eq_decide]; omega
    simp only [owReadByteProgram] at h
    split at h
    · cases h
      obtain ⟨m, a, he⟩ := startReadSlot_eq_withByte (k / 4) u
      rw [he]
      exact .low m a (hin.trans (decide_eq_true ‹_›))
    · rename_i h0
      have hin := hin.trans (decide_eq_false h0)
      split at h
      · cases h; exact .release hin (hbefore.trans (decide_eq_true ‹_›))
      · have hbefore := hbefore.trans (decide_eq_false ‹_›)
        split at h <;> cases h
        · obtain ⟨m, a, he⟩ := sampleIntoAcc_eq_withByte pin.toNat u
          rw [he]
          exact .keep m a hin hbefore
        · exact .keep u.seq.mask u.seq.acc hin hbefore
  case owWriteByte byte =>
    have hk : k < 24 := hk
    have hin : drivesIn (.owWriteByte pin byte) k = decide (k % 3 = 0) := by simp [drivesIn_owWriteByte, hk]
    have hbefore : drivesBefore (.owWriteByte pin byte) k = decide (k % 3 = 1) := by
      cases k with
      | zero => rfl
      | succ k => rw [drivesBefore, drivesIn_owWriteByte, decide_eq_decide]; omega
    simp only [owWriteByteProgram] at h
    split at h
    · cases h
      exact .low _ u.seq.acc (hin.trans (decide_eq_true ‹_›))
    · rename_i h0
      have hin := hin.trans (decide_eq_false h0)
      split at h <;> cases h
      · exact .release hin (hbefore.trans (decide_eq_true ‹_›))
      · exact .keep u.seq.mask u.seq.acc hin (hbefore.trans (decide_eq_false ‹_›))

/-! ## From phase to phase -/

/-- The directions in which phase `k` is entered: all pins released, or the command's own low where the phase before
drove it. -/
def EntersWith (i : Instr) (p k : Nat) (d : BitVec 32) : Prop :=
  d = 0 ∨ (drivesBefore i k = true ∧ d = setBit 0 p true)

/-- The directions in a phase of a one-wire command on a pin that exists. -/
theorem phaseDirections_ow {c : Config} {i : Instr} {pin : Byte} (hi : owPin i = some pin)
    (hpin : pinUsable c pin = true) (k : Nat) :
    phaseDirections c i k = if drivesIn i k then setBit 0 pin.toNat true else 0 := by
  unfold phaseDirections drivesIn
  cases hd : drivenBy i k with
  | none => rfl
  | some p =>
    obtain ⟨pin', hi', rfl⟩ := drivenBy_eq hd
    obtain rfl : pin = pin' := Option.some.inj (hi.symm.trans hi')
    have hlt : pin.toNat < c.npins := of_decide_eq_true hpin
    simp [hlt]

/-- A command with no pin that exists drives none. -/
theorem phaseDirections_eq_zero {c : Config} {i : Instr} (h : ∀ pin, owPin i = some pin → pinUsable c pin = false)
    (k : Nat) : phaseDirections c i k = 0 := by
  unfold phaseDirections
  split
  · rename_i p hd
    obtain ⟨pin, hi, rfl⟩ := drivenBy_eq hd
    exact if_neg (of_decide_eq_false (h pin hi))
  · rfl

/-- The directions of a phase of a one-wire command are ones with which the next phase can be entered. -/
theorem entersWith_next {c : Config} {i : Instr} {pin : Byte} (hi : owPin i = some pin) (hpin : pinUsable c pin = true)
    (k : Nat) : EntersWith i pin.toNat (k + 1) (phaseDirections c i k) := by
  rw [phaseDirections_ow hi hpin]
  split
  · exact .inr ⟨‹_›, rfl⟩
  · exact .inl rfl

namespace OwPhase

variable {i : Instr} {p k : Nat} {u v : State}

/-- The action of a one-wire phase keeps what SEQ says of the command's progress. -/
theorem progress (h : OwPhase i p k u v) :
    v.seq.busy = u.seq.busy ∧ v.seq.fresh = u.seq.fresh ∧ v.seq.phase = u.seq.phase := by
  cases h <;> exact ⟨rfl, rfl, rfl⟩

/-- Entered with the directions of the phase before, a phase leaves its own. -/
theorem pinDir (h : OwPhase i p k u v) (hu : EntersWith i p k u.pinDir) :
    v.pinDir = if drivesIn i k then setBit 0 p true else 0 := by
  cases h with
  | low m a hin =>
    rcases hu with hzero | ⟨hlow, -⟩
    · rw [if_pos hin, ← hzero]
      rfl
    · rw [drivesBefore_of_drivesIn hin] at hlow
      cases hlow
  | release hin =>
    show setBit u.pinDir p false = _
    rw [hin]
    rcases hu with hzero | ⟨-, hlow⟩
    · rw [hzero]
      exact setBit_zero_false p
    · rw [hlow, setBit_setBit]
      exact setBit_zero_false p
  | keep m a hin hbefore =>
    rcases hu with hzero | ⟨hlow, -⟩
    · rw [hin]
      exact hzero
    · rw [hbefore] at hlow
      cases hlow

end OwPhase

/-! ## The cycle of a command -/

/-- A one-wire command's entry of phases leaves the directions of the phase it stops in, or, complete, all pins
released. -/
theorem enterPhases_pinDir {c : Config} {i : Instr} {pin : Byte} (hi : owPin i = some pin)
    (hpin : pinUsable c pin = true) (r : Nat) : ∀ {s t : State}, enterPhases (programOf c i) r s = .ok t →
    r = (programOf c i).len - s.seq.phase.toNat → s.seq.busy = true → s.seq.fresh = false →
    EntersWith i pin.toNat s.seq.phase.toNat s.pinDir → t.pinDir = seqDirections c i t.seq := by
  obtain ⟨hlen, hlast⟩ := owProgram_len hi hpin
  induction r with
  | zero =>
    intro s t h hr _ _ hdir
    cases h
    obtain ⟨res, hfin⟩ := programOf_finish c i s
    rw [completeCommand, hfin]
    show s.pinDir = 0
    rcases hdir with hzero | ⟨hbefore, -⟩
    · exact hzero
    · cases hphase : s.seq.phase.toNat with
      | zero => rw [hphase] at hbefore; cases hbefore
      | succ k =>
        rw [hphase] at hbefore hr
        have := hlast k hbefore
        omega
  | succ r ih =>
    intro s t h hr hbusy hfresh hdir
    simp only [enterPhases] at h
    split at h
    · cases h
    · rename_i u hact
      have hphase := owAction_phase hi hpin (by omega) hact
      obtain ⟨hubusy, hufresh, huphase⟩ := hphase.progress
      have hudir : u.pinDir = phaseDirections c i u.seq.phase.toNat := by
        rw [huphase, phaseDirections_ow hi hpin, hphase.pinDir hdir]
      split at h
      · have hnext : (u.seq.phase + 1).toNat = u.seq.phase.toNat + 1 := by
          have hlt : u.seq.phase.toNat + (1#32).toNat < 2 ^ 32 := by
            have hone : (1#32).toNat = 1 := rfl
            rw [huphase, hone]
            omega
          exact BitVec.toNat_add_of_lt hlt
        refine ih h ?_ (hubusy.trans hbusy) (hufresh.trans hfresh) ?_
        · show r = _ - (u.seq.phase + 1).toNat
          rw [hnext, huphase]
          omega
        · show EntersWith i _ (u.seq.phase + 1).toNat u.pinDir
          rw [hnext, hudir]
          exact entersWith_next hi hpin _
      · cases h
        show u.pinDir = if u.seq.busy ∧ ¬ u.seq.fresh then phaseDirections c i u.seq.phase.toNat else 0
        rw [hubusy, hufresh, hbusy, hfresh, hudir]
        rfl

/-- The cycle of a command with no pin that exists keeps all pins released (R163, R175). -/
theorem exec_pinDir_zero {i : Instr} {s t : State} (hno : ∀ pin, owPin i = some pin → pinUsable s.cfg pin = false)
    (h : exec i s = .next t) (hs : s.pinDir = 0) : t.pinDir = 0 := by
  refine exec_of_effects (fun u => u.pinDir = 0) (fun u v he hu => ?_) h hs
  cases he with
  | driveLow _ pin _ _ hi hpin => rw [hno pin hi] at hpin; cases hpin
  | release _ pin _ hi hpin => rw [hno pin hi] at hpin; cases hpin
  | rfInit pin baud =>
    show setBit u.pinDir pin.toNat false = 0
    rw [hu]
    exact setBit_zero_false _
  | _ => exact hu

/-- The cycle of every command keeps the directions a function of SEQ (R176). -/
theorem exec_pinDir {i : Instr} {s t : State} (h : exec i s = .next t) (hs : s.pinDir = seqDirections s.cfg i s.seq) :
    t.pinDir = seqDirections s.cfg i t.seq := by
  by_cases how : ∃ pin, owPin i = some pin ∧ pinUsable s.cfg pin = true
  · obtain ⟨pin, hi, hpin⟩ := how
    rcases seqStep_cases (exec_next.1 h) with
      ⟨-, rfl⟩ | ⟨-, -, -, rfl⟩ | ⟨hbusy, hfresh, h⟩ | ⟨hbusy, hfresh, -, h⟩
    · exact hs
    · exact hs
    · refine enterPhases_pinDir hi hpin _ h rfl hbusy rfl (.inl ?_)
      show s.pinDir = 0
      rw [hs, seqDirections, hfresh]
      simp
    · refine enterPhases_pinDir hi hpin _ h rfl hbusy hfresh ?_
      show EntersWith i _ (s.seq.phase + 1).toNat s.pinDir
      rw [hs, seqDirections, if_pos ⟨hbusy, by simp [hfresh]⟩]
      by_cases hwrap : s.seq.phase.toNat + 1 < 2 ^ 32
      · rw [BitVec.toNat_add_of_lt hwrap]
        exact entersWith_next hi hpin _
      · left
        obtain ⟨hlen, hlast⟩ := owProgram_len hi hpin
        rw [phaseDirections_ow hi hpin, if_neg]
        intro hlow
        have := hlast _ hlow
        omega
  · have hno : ∀ pin, owPin i = some pin → pinUsable s.cfg pin = false := fun pin hi =>
      Bool.eq_false_iff.2 fun hpin => how ⟨pin, hi, hpin⟩
    have hzero : ∀ q, seqDirections s.cfg i q = 0 := fun q => by
      rw [seqDirections, phaseDirections_eq_zero hno, ite_self]
    rw [hzero] at hs ⊢
    exact exec_pinDir_zero hno h hs

/-! ## The clock cycle (70_reset_and_hazards.md R330) -/

/-- With a command in SEQ the directions are the command's. -/
theorem busDirections_of_decode {s : State} {i : Instr} (h : decode s.seq.cmd = .ok i) :
    busDirections s = seqDirections s.cfg i s.seq := by
  rw [busDirections, h]
  rfl

/-- With SEQ idle, or a command accepted and none of its phases entered, all pins are inputs (R176). -/
theorem busDirections_eq_zero {s : State} (h : s.seq.busy = false ∨ s.seq.fresh = true) : busDirections s = 0 := by
  refine if_neg fun ⟨hbusy, hfresh⟩ => ?_
  rcases h with h | h
  · rw [h] at hbusy; cases hbusy
  · exact hfresh h

/-- With SEQ idle a host access leaves it idle or with a command just accepted (30_encoding.md R103). -/
theorem hostAccess_seq_of_idle (a : HostAccess) {s : State} (h : s.seq.busy = false) :
    (hostAccess a s).seq.busy = false ∨ (hostAccess a s).seq.fresh = true := by
  cases a with
  | idle | read widx => exact .inl h
  | write widx v =>
    rw [hostAccess]
    rcases regWrite_cases widx v s with ⟨-, hbusy⟩ | ⟨he, -⟩ | ⟨he, -⟩ | he | he | he | he
    · rw [h] at hbusy; cases hbusy
    · rw [he]; exact .inl h
    · rw [he]; exact .inr rfl
    all_goals rw [he]; exact .inl h

/-- INT's dispatch keeps the directions (60_exceptions.md R295). -/
theorem intDispatch_pinDir {s t : State} (h : intDispatch s = .ok t) : t.pinDir = s.pinDir := by
  rcases intDispatch_cases h with rfl | ⟨src, u, -, -, hu, rfl⟩
  · rfl
  · obtain ⟨tk, r, m, st, es, cb, rfl⟩ := handlerOf_frame hu
    rw [clearPending_frame]
    rfl

/-- Up to INT's dispatch a cycle keeps the directions. -/
theorem beforeSeq_pinDir {s s1 : State} (h : beforeSeq s = .ok s1) : s1.pinDir = s.pinDir := by
  obtain ⟨q, st, ic, cb, rd, he⟩ := hostAccess_frame (nextInput s).host (beginCycle (nextInput s) s)
  rw [intDispatch_pinDir h, timersStep_pinDir, he]
  rfl

/-- With SEQ idle at the start of a cycle it is still idle, or has a command just accepted, when it would step. -/
theorem beforeSeq_seq_of_idle {s s1 : State} (h : beforeSeq s = .ok s1) (hidle : s.seq.busy = false) :
    s1.seq.busy = false ∨ s1.seq.fresh = true := by
  have hbegin : (beginCycle (nextInput s) s).seq.busy = false := hidle
  rw [intDispatch_seq h, timersStep_seq]
  exact hostAccess_seq_of_idle _ hbegin

/-- The cycle up to INT's dispatch keeps the bus invariant: a command just accepted has driven no pin yet. -/
theorem busInv_beforeSeq {s s1 : State} (h : beforeSeq s = .ok s1) (hs : BusInv s) : BusInv s1 := by
  rw [BusInv, beforeSeq_pinDir h, hs]
  cases hb : s.seq.busy with
  | false => rw [busDirections_eq_zero (.inl hb), busDirections_eq_zero (beforeSeq_seq_of_idle h hb)]
  | true => rw [busDirections, busDirections, beforeSeq_seq_of_busy h hb, (beforeSeq_cfg_inputs h).1]

/-- The cycle of the command in progress keeps the bus invariant. -/
theorem busInv_exec {i : Instr} {s t : State} (h : exec i s = .next t) (hi : decode s.seq.cmd = .ok i) (hs : BusInv s) :
    BusInv t := by
  have hcmd : decode t.seq.cmd = .ok i := by rw [exec_cmd h, hi]
  rw [BusInv, busDirections_of_decode hcmd, (exec_fixed h).1]
  exact exec_pinDir h (hs.trans (busDirections_of_decode hi))

end Sys2Proof.Machine

namespace Sys2Proof.Claims

open Sys2Proof.Machine

/-- Settles O59: each part of the cycle keeps the bus invariant, and with SEQ idle it says that no pin is an output. -/
theorem busInvKept : Obligations.BusInvKept := by
  intro s t _ hs h
  have hbus : BusInv t := by
    rcases step_cases h with ⟨-, rfl⟩ | ⟨-, s1, h1, ⟨-, rfl⟩ | ⟨-, -, i, u, hi, hu, rfl⟩⟩
    · rfl
    · have hkept : BusInv s1 := busInv_beforeSeq h1 hs
      exact hkept
    · have hkept : BusInv s1 := busInv_beforeSeq h1 hs
      have hcounted : BusInv (isrCountdown s1) := hkept
      have hran : BusInv u := busInv_exec hu hi hcounted
      exact hran
  exact ⟨hbus, fun hidle => hbus.trans (busDirections_eq_zero (.inl hidle))⟩

end Sys2Proof.Claims
end

section
/-! SUPPORT. What the nibbler answers, by the groups of its byte (42_manchester.md R193, R194, R197). -/

namespace Sys2Proof.Machine

/-- The coded byte `c` has the groups of the nibble `x` (42_manchester.md R190). -/
abbrev CodesNibble (c : Byte) (x : BitVec 4) : Prop :=
  ∀ k, k < 4 → c.extractLsb' (2 * k) 2 = manGroup (x.getLsbD k)

/-- A group that is the group of no data bit (42_manchester.md R193). -/
abbrev IllegalGroup (g : BitVec 2) : Prop := ∀ b, g ≠ manGroup b

/-- The two illegal groups (R193, R198). -/
theorem illegalGroup_iff {g : BitVec 2} : IllegalGroup g ↔ g = 0b00#2 ∨ g = 0b11#2 := by
  decide +revert

/-- A group is that of a data bit or illegal. -/
theorem manGroup_or_illegal (g : BitVec 2) : (∃ b, g = manGroup b) ∨ IllegalGroup g := by
  decide +revert

/-- A byte that codes a nibble is not the sentinel, whose lowest group is 00 (R193). -/
theorem CodesNibble.ne_sentinel {c : Byte} {x : BitVec 4} (h : CodesNibble c x) : c ≠ 0xF0#8 := by
  rintro rfl
  exact illegalGroup_iff.2 (.inl rfl) _ (h 0 (by decide))

/-- The groups of a coded byte determine it. -/
theorem eq_of_groups {c d : Byte}
    (h : ∀ k, k < 4 → c.extractLsb' (2 * k) 2 = d.extractLsb' (2 * k) 2) : c = d := by
  refine BitVec.eq_of_getLsbD_eq fun j hj => ?_
  have hbit : ∀ e : Byte, (e.extractLsb' (2 * (j / 2)) 2).getLsbD (j % 2) = e.getLsbD j := fun e => by
    rw [BitVec.getLsbD_extractLsb', decide_eq_true (Nat.mod_lt j Nat.two_pos), Bool.true_and, Nat.div_add_mod]
  rw [← hbit c, ← hbit d, h (j / 2) (by omega)]

/-- A byte either codes a nibble or has an illegal group. -/
theorem codesNibble_or_illegal (c : Byte) :
    (∃ x, CodesNibble c x) ∨ ∃ k < 4, IllegalGroup (c.extractLsb' (2 * k) 2) := by
  by_cases hillegal : ∃ k < 4, IllegalGroup (c.extractLsb' (2 * k) 2)
  · exact .inr hillegal
  · have hlegal : ∀ k < 4, ∃ b, c.extractLsb' (2 * k) 2 = manGroup b := fun k hk =>
      (manGroup_or_illegal _).resolve_right fun h => hillegal ⟨k, hk, h⟩
    refine .inl ⟨BitVec.ofFnLE fun k : Fin 4 => c.getLsbD (2 * k), fun k hk => ?_⟩
    obtain ⟨b, hb⟩ := hlegal k hk
    have hlow : c.getLsbD (2 * k) = b := by
      have hgroup : ∀ b, (manGroup b).getLsbD 0 = b := by decide
      rw [← hgroup b, ← hb, BitVec.getLsbD_extractLsb']
      rfl
    rw [BitVec.getLsbD_ofFnLE, dif_pos hk, hlow, hb]

/-- The encoder's low byte codes the low nibble (R191). -/
theorem manOut0_codes (b : Byte) : CodesNibble (manOut0 b) (b.extractLsb' 0 4) := fun k hk => by
  rw [manOut0_group b hk, BitVec.getLsbD_extractLsb', decide_eq_true hk, Bool.true_and, Nat.zero_add]

/-- The encoder's high byte codes the high nibble (R191). -/
theorem manOut1_codes (b : Byte) : CodesNibble (manOut1 b) (b.extractLsb' 4 4) := fun k hk => by
  rw [manOut1_group b hk, BitVec.getLsbD_extractLsb', decide_eq_true hk, Bool.true_and, Nat.add_comm]

/-- A group of a data bit gives that bit to the nibble, and the decode goes on (R193). -/
theorem nibGroups_succ_of_group {c : Byte} {k : Nat} {b : Bool} (h : c.extractLsb' (2 * k) 2 = manGroup b)
    (r : Nat) (n : Byte) :
    nibGroups c (r + 1) k n = nibGroups c r (k + 1) (if b then n ||| (1#8 <<< k) else n) := by
  rw [nibGroups, h]
  cases b <;> rfl

/-- An illegal group ends the decode (R193). -/
theorem nibGroups_succ_of_illegal {c : Byte} {k : Nat} (h : IllegalGroup (c.extractLsb' (2 * k) 2))
    (r : Nat) (n : Byte) : nibGroups c (r + 1) k n = 0xFF#8 :=
  (if_neg (h true)).trans (if_neg (h false))

/-- An illegal group anywhere among those still to be decoded makes the answer 0xFF (R193). -/
theorem nibGroups_of_illegal {c : Byte} {r k j : Nat} (hkj : k ≤ j) (hjr : j < k + r)
    (h : IllegalGroup (c.extractLsb' (2 * j) 2)) (n : Byte) : nibGroups c r k n = 0xFF#8 := by
  induction r generalizing k n with
  | zero => omega
  | succ r ih =>
    rcases manGroup_or_illegal (c.extractLsb' (2 * k) 2) with ⟨b, hb⟩ | hk
    · have hne : k ≠ j := by
        rintro rfl
        exact h b hb
      rw [nibGroups_succ_of_group hb]
      exact ih (by omega) (by omega) _
    · exact nibGroups_succ_of_illegal hk r n

/-- Decoding the groups of a nibble from `k` on adds its bits from there on. -/
theorem getLsbD_nibGroups {c : Byte} {x : BitVec 4} (h : CodesNibble c x) {r k : Nat} (hr : k + r = 4) (n : Byte)
    (j : Nat) : (nibGroups c r k n).getLsbD j = (n.getLsbD j || decide (k ≤ j) && x.getLsbD j) := by
  induction r generalizing k n with
  | zero =>
    have hpast : (decide (k ≤ j) && x.getLsbD j) = false := by
      by_cases hj : k ≤ j
      · rw [BitVec.getLsbD_of_ge x j (by omega), Bool.and_false]
      · rw [decide_eq_false hj, Bool.false_and]
    rw [hpast, Bool.or_false]
    rfl
  | succ r ih =>
    have hset : (if x.getLsbD k then n ||| (1#8 <<< k) else n).getLsbD j =
        (n.getLsbD j || decide (k = j) && x.getLsbD j) := by
      by_cases hj : k = j
      · subst hj
        cases hx : x.getLsbD k <;> simp [show k < 8 by omega]
      · cases hx : x.getLsbD k <;> simp [hj]
        omega
    have hrange : (decide (k = j) || decide (k + 1 ≤ j)) = decide (k ≤ j) := by
      rw [← Bool.decide_or]
      exact decide_eq_decide.2 (by omega)
    rw [nibGroups_succ_of_group (h k (by omega)), ih (by omega), hset, Bool.or_assoc, ← Bool.and_or_distrib_right,
      hrange]

/-- The sentinel is tested before anything else (R193). -/
theorem nib_sentinel : nib 0xF0#8 = 0xF0#8 := rfl

/-- The nibbler gives the nibble its byte codes (R193). -/
theorem CodesNibble.nib_eq {c : Byte} {x : BitVec 4} (h : CodesNibble c x) : nib c = x.setWidth 8 := by
  rw [nib, if_neg h.ne_sentinel]
  refine BitVec.eq_of_getLsbD_eq fun j hj => ?_
  rw [getLsbD_nibGroups h rfl, BitVec.getLsbD_setWidth, decide_eq_true hj, decide_eq_true (Nat.zero_le j),
    Bool.true_and, show (0 : Byte).getLsbD j = false from BitVec.getLsbD_zero, Bool.false_or]

/-- A nibble is not the answer to an illegal byte. -/
theorem CodesNibble.nib_ne_illegal {c : Byte} {x : BitVec 4} (h : CodesNibble c x) : nib c ≠ 0xFF#8 := by
  have hsmall : ∀ x : BitVec 4, x.setWidth 8 ≠ 0xFF#8 := by decide
  rw [h.nib_eq]
  exact hsmall x

/-- An illegal group makes the nibbler's answer 0xFF, the sentinel apart (R193). -/
theorem nib_of_illegal {c : Byte} {k : Nat} (hc : c ≠ 0xF0#8) (hk : k < 4)
    (h : IllegalGroup (c.extractLsb' (2 * k) 2)) : nib c = 0xFF#8 :=
  (if_neg hc).trans (nibGroups_of_illegal (Nat.zero_le k) (by omega) h 0)

/-- The table lists what the encoder makes of each nibble (R191, R194). -/
theorem nibbleTable_eq_encoded :
    nibbleTable = (List.range 16).map fun n => (manOut0 (BitVec.ofNat 8 n), BitVec.ofNat 8 n) := by decide

/-- The table gives each nibble for its coded byte (R194). -/
theorem CodesNibble.nibbleOf_eq {c : Byte} {x : BitVec 4} (h : CodesNibble c x) :
    nibbleOf c = x.setWidth 8 := by
  have htable : ∀ n < 16, nibbleOf (manOut0 (BitVec.ofNat 8 n)) = BitVec.ofNat 8 n := by decide
  have hlow : ∀ x : BitVec 4, (x.setWidth 8).extractLsb' 0 4 = x := by decide
  have hcode : c = manOut0 (x.setWidth 8) := eq_of_groups fun k hk => by
    rw [h k hk, manOut0_codes _ k hk, hlow]
  rw [hcode, ← BitVec.ofNat_toNat, htable x.toNat x.isLt]

/-- The table has no byte with an illegal group (R194). -/
theorem nibbleOf_of_illegal {c : Byte} {k : Nat} (hc : c ≠ 0xF0#8) (hk : k < 4)
    (h : IllegalGroup (c.extractLsb' (2 * k) 2)) : nibbleOf c = 0xFF#8 := by
  have hnone : nibbleTable.lookup c = none := List.lookup_eq_none_iff.2 fun p hp => by
    rw [nibbleTable_eq_encoded] at hp
    obtain ⟨n, -, rfl⟩ := List.mem_map.1 hp
    refine bne_iff_ne.2 ?_
    rintro rfl
    exact h _ (manOut0_group _ hk)
  refine (if_neg hc).trans ?_
  rw [hnone]
  rfl

/-- The nibbler is the table (R193, R194). -/
theorem nib_eq_nibbleOf (c : Byte) : nib c = nibbleOf c := by
  by_cases hc : c = 0xF0#8
  · subst hc
    rfl
  · rcases codesNibble_or_illegal c with ⟨x, hx⟩ | ⟨k, hk, hk'⟩
    · rw [hx.nib_eq, hx.nibbleOf_eq]
    · rw [nib_of_illegal hc hk hk', nibbleOf_of_illegal hc hk hk']

/-- The decode of two bytes in numbers: the shift of the high one is cut to 8 bits (R195). -/
theorem dec_setWidth (in0 in1 : Byte) :
    (dec in0 in1).setWidth 32 = BitVec.ofNat 32 (((nib in1).toNat * 16) % 256 ||| (nib in0).toNat) := by
  rw [← BitVec.ofNat_toNat, dec, BitVec.toNat_or, BitVec.toNat_shiftLeft, Nat.shiftLeft_eq]

/-- The decode of what a byte was encoded to is the byte (R197). -/
theorem dec_manOut (b : Byte) : dec (manOut0 b) (manOut1 b) = b := by
  rw [dec, (manOut0_codes b).nib_eq, (manOut1_codes b).nib_eq]
  refine BitVec.eq_of_getLsbD_eq fun j hj => ?_
  by_cases hlow : j < 4
  · simp [hj, hlow]
  · simp [hj, hlow, show j - 4 < 4 by omega, show 4 + (j - 4) = j by omega]

/-- `MAN_DECODE` completes in its first cycle, in the state its action leaves (R195). -/
theorem exec_manDecode (in1 in0 : Byte) {s : State} (h : Accepted s) :
    exec (.manDecode in1 in0) s = .next { manDecodeAction in1 in0 s with seq := completed s.seq 1 } :=
  exec_immediate (t := manDecodeAction in1 in0 s) rfl h rfl

end Sys2Proof.Machine

namespace Sys2Proof.Claims

open Sys2Proof.Machine

/-- Settles O37: an immediate command whose action is the one R193 states, and the nibbler is the table. -/
theorem manNibbler : Obligations.ManNibbler := by
  refine ⟨fun s c h => ?_, nib_eq_nibbleOf, fun c k hc hk hgroup => ?_, nib_sentinel⟩
  · rw [← nib_eq_nibbleOf]
    exact exec_immediate (t := manNibblerAction c s) rfl h rfl
  · exact nib_of_illegal hc hk (illegalGroup_iff.2 hgroup)

/-- Settles O38: an immediate command whose action is the one R195 states. -/
theorem manDecode : Obligations.ManDecode := by
  intro s in1 in0 h
  rw [← dec_setWidth]
  exact exec_manDecode in1 in0 h

/-- Settles O39: the two bytes the encoder returned code the two nibbles, so neither is illegal or the sentinel. -/
theorem manRoundTrip : Obligations.ManRoundTrip := by
  intro s t u b hs hu ht
  obtain rfl := Host.Outcome.next.inj ((exec_immediate_setResult rfl hs).symm.trans ht)
  have hlow : (0#16 ++ manOut1 b ++ manOut0 b).extractLsb' 0 8 = manOut0 b :=
    BitVec.extractLsb'_append_eq_right
  have hhigh : (0#16 ++ manOut1 b ++ manOut0 b).extractLsb' 8 8 = manOut1 b := by
    rw [BitVec.extractLsb'_append_eq_of_le (Nat.le_refl 8)]
    exact BitVec.extractLsb'_append_eq_right
  have hlo := manOut0_codes b
  have hhi := manOut1_codes b
  dsimp only
  rw [hlow, hhigh, exec_manDecode _ _ hu, manDecodeAction, dec_manOut, beq_false_of_ne hlo.nib_ne_illegal,
    beq_false_of_ne hhi.nib_ne_illegal, beq_false_of_ne hlo.ne_sentinel, beq_false_of_ne hhi.ne_sentinel]
  rfl

end Sys2Proof.Claims
end

section
/-! SUPPORT. The commands of unit RF: the actions of `RF_INIT`, arming, stopping and asking, and the reads of BUF
(43_rf433.md R211 to R218). -/

namespace Sys2Proof.Machine

/-- An immediate command whose action faults stops the machine with that fault. -/
theorem exec_immediate_fault {i : Instr} {act : State → Except Fault State} {s : State} {f : Fault}
    (hP : programOf s.cfg i = immediate act) (h : Accepted s) (hact : act (atPhase s 0) = .error f) :
    exec i s = .fault f := by
  have henter : enterAt (immediate act) 0 s = .error f := by
    show enterPhases (immediate act) 1 (atPhase s 0) = .error f
    simp [enterPhases, immediate, hact]
  rw [exec_accepted hP h, henter]
  rfl

/-- The operands `RF_INIT` can use (43_rf433.md R211). -/
theorem rfInitUsable_eq_true {c : Config} {pin : Byte} {baud : Half} (hpin : pin.toNat < c.npins) (hbaud : baud ≠ 0)
    (hcyc : rfTickCycles c baud ≠ 0) (hfit : (timerFit c (rfTickCycles c baud)).fits = true) :
    rfInitUsable c pin baud = true := by
  simp [rfInitUsable, pinUsable, hpin, hcyc, hfit, show ¬ baud = 0#16 from hbaud]

/-- The state `RF_INIT` leaves, where `f` is what `TimerFit` answers for half a bit period (43_rf433.md R211). -/
def rfStarted (pin : Byte) (f : PeriodFit) (s : State) : State :=
  { s with
    pinDir := setBit s.pinDir pin.toNat false
    rf := ⟨pin, false, false, 0, 0, .idle, 0, 0, 0, 0, 0, false⟩
    rt := startTimer f.ps f.pr
    intcon := { s.intcon with ifRf := false, ieRf := true }
    result := 0 }

/-- The action of `RF_INIT` writes the pin's direction, the record, the RF timer, its source and RESULT. -/
theorem rfInitAction_eq (pin : Byte) (baud : Half) (s : State) :
    rfInitAction pin baud s = rfStarted pin (timerFit s.cfg (rfTickCycles s.cfg baud)) s := by
  simp only [rfInitAction, rfStarted, armRfSource, pinRelease, State.setRf, State.setRt, State.setIntcon,
    State.setResult, State.setPinDir]

/-- The byte counts `RF_BEGIN_BYTES` can use (43_rf433.md R214). -/
theorem maxBytesUsable_eq_true {c : Config} {m : Byte} (hpos : m ≠ 0) (hcap : m.toNat ≤ c.rfBufCap) :
    maxBytesUsable c m = true := decide_eq_true ⟨hpos, hcap⟩

section
variable {s : State} {i : Nat} {b : Byte}

/-- A byte that has been stored is read (20_memory.md R70). -/
theorem bufLoad_of_stored (hi : i < s.cfg.rfBufCap) (hb : bufByte s i = some b) : bufLoad s i = .ok b := by
  rw [bufLoad, if_pos hi, hb]

/-- A byte that nothing has stored is the named error (93_implementation_defined.md U6). -/
theorem bufLoad_of_unwritten (hi : i < s.cfg.rfBufCap) (hb : bufByte s i = none) :
    bufLoad s i = .error (.bufUnwritten i) := by
  rw [bufLoad, if_pos hi, hb]

end

/-- `RF_RDBUF` on an index inside BUF is the read of that byte (43_rf433.md R218). -/
theorem programOf_rfRdBuf {c : Config} {index : Byte} (h : index.toNat < c.rfBufCap) :
    programOf c (.rfRdBuf index) = immediate (rfRdBufAction index.toNat) := if_pos h

end Sys2Proof.Machine

namespace Sys2Proof.Claims

open Sys2Proof.Machine

/-- Settles O40: an immediate command whose action is the one R211 states. -/
theorem rfInit : Obligations.RfInit := by
  intro s pin baud h f hpin hbaud hcyc hfit
  refine exec_immediate (t := rfStarted pin f s) (if_pos (rfInitUsable_eq_true hpin hbaud hcyc hfit)) h ?_
  rw [rfInitAction_eq]
  rfl

/-- Settles O41: four immediate commands, two of which arm the receiver. -/
theorem rfControl : Obligations.RfControl := by
  intro s h arm
  refine ⟨?_, fun m hpos hcap => ?_, ?_, ?_⟩
  · exact exec_immediate (t := rfArm 2 false s) rfl h rfl
  · exact exec_immediate (t := rfArm m true s) (if_pos (maxBytesUsable_eq_true hpos hcap)) h rfl
  · exact exec_immediate (t := s.setResult (if s.rf.mode = .msg then 1 else 0)) rfl h rfl
  · exact exec_immediate (t := (setMode .idle s).setResult 0) rfl h rfl

/-- Settles O42: each read of BUF answers a stored byte, and stops the command at the first one that is not. -/
theorem rfReads : Obligations.RfReads := by
  intro s h
  have load (i : Nat) : bufLoad (atPhase s 0) i = bufLoad s i := rfl
  refine ⟨fun b0 b1 hcap h0 h1 => ?_, fun hcap h0 => ?_, fun b0 hcap h0 h1 => ?_, fun i b hi hb => ?_,
    fun i hi hb => ?_⟩
  · refine exec_immediate (t := s.setResult (0#16 ++ b0 ++ b1)) rfl h ?_
    rw [rfGetMsgAction, load, load, bufLoad_of_stored (by omega) h0, bufLoad_of_stored (by omega) h1]
    rfl
  · refine exec_immediate_fault rfl h ?_
    rw [rfGetMsgAction, load, bufLoad_of_unwritten (by omega) h0]
  · refine exec_immediate_fault rfl h ?_
    rw [rfGetMsgAction, load, load, bufLoad_of_stored (by omega) h0, bufLoad_of_unwritten (by omega) h1]
  · refine exec_immediate (t := s.setResult (b.setWidth 32)) (programOf_rfRdBuf hi) h ?_
    rw [rfRdBufAction, load, bufLoad_of_stored hi hb]
    rfl
  · refine exec_immediate_fault (programOf_rfRdBuf hi) h ?_
    rw [rfRdBufAction, load, bufLoad_of_unwritten hi hb]

end Sys2Proof.Claims
end

section
/-! SUPPORT. One RF tick by the mode at entry: the sample and the count it works with, and what each mode does at a
transition, by the class of the pulse that ended (43_rf433.md R219 to R224). -/

namespace Sys2Proof.Machine

/-! ## The sample, the count and the frame of a tick (43_rf433.md R219, R220) -/

/-- The state in which the mode's part of an RF tick runs: the tick counted, and the sample accepted or kept. -/
def sampled (s : State) : State := s.setRf { s.rf with count := tickCount s, sample := acceptedSample s }

/-- The sampling part of a tick counts up to 0xFFFF and accepts a sample on which two consecutive cycles agree. -/
theorem rfSample_eq_sampled (s : State) : rfSample s = sampled s := by
  have hcount : (if s.rf.count = 0xFFFF#16 then 0xFFFF#16 else s.rf.count + 1) = tickCount s := by
    unfold tickCount
    split
    · simp [*]
    · bv_omega
  rw [rfSample, hcount]
  rfl

/-- A tick in a receiving mode samples, does the mode's part, and records the sample (R219). -/
theorem rfHandler_running {s : State} (hmsg : s.rf.mode ≠ .msg) (hidle : s.rf.mode ≠ .idle) :
    rfHandler s =
      (rfModeStep s.rf.mode (acceptedSample s != s.rf.lastSample) (sampled s)).map rfRecordSample := by
  have hmode : (sampled s).rf.mode = s.rf.mode := rfl
  have htransition : ((sampled s).rf.sample != (sampled s).rf.lastSample) = (acceptedSample s != s.rf.lastSample) := rfl
  rw [rfHandler, if_neg (not_or.2 ⟨hmsg, hidle⟩), rfSample_eq_sampled]
  dsimp only
  rw [hmode, htransition]
  cases rfModeStep s.rf.mode (acceptedSample s != s.rf.lastSample) (sampled s) <;> rfl

/-- Without a transition no mode does anything. -/
theorem rfModeStep_still (m : RfMode) (s : State) : rfModeStep m false s = .ok s := by
  cases m <;> rfl

/-- A tick at a transition, from what the mode's part of it answers. -/
theorem rfHandler_edge {s u : State} (hmsg : s.rf.mode ≠ .msg) (hidle : s.rf.mode ≠ .idle)
    (hx : acceptedSample s ≠ s.rf.lastSample) (hu : rfModeStep s.rf.mode true (sampled s) = .ok u) :
    rfHandler s = .ok (rfRecordSample u) := by
  rw [rfHandler_running hmsg hidle, bne_iff_ne.2 hx, hu]
  rfl

section
variable {s : State} (hx : acceptedSample s ≠ s.rf.lastSample)
include hx

/-- A tick at a transition in mode PRE. -/
theorem rfHandler_pre_edge (hm : s.rf.mode = .pre) : rfHandler s = .ok (rfRecordSample (rfPre true (sampled s))) :=
  rfHandler_edge (by simp [hm]) (by simp [hm]) hx (by rw [hm]; rfl)

/-- A tick at a transition in mode SYNC. -/
theorem rfHandler_sync_edge (hm : s.rf.mode = .sync) : rfHandler s = .ok (rfRecordSample (rfSync true (sampled s))) :=
  rfHandler_edge (by simp [hm]) (by simp [hm]) hx (by rw [hm]; rfl)

/-- A tick at a transition in mode DATA. -/
theorem rfHandler_data_edge {u : State} (hm : s.rf.mode = .data) (hu : rfData true (sampled s) = .ok u) :
    rfHandler s = .ok (rfRecordSample u) :=
  rfHandler_edge (by simp [hm]) (by simp [hm]) hx (by rw [hm]; exact hu)

end

/-! ## The class of a pulse (43_rf433.md R221) -/

section
variable {c : Config} {n : Half}

/-- The first window is the short pulse's. -/
theorem classify_short (h : IsShort c n) : classify c n.toNat = .short := if_pos h

/-- The second window is the long pulse's. -/
theorem classify_long (hs : ¬ IsShort c n) (hl : IsLong c n) : classify c n.toNat = .long :=
  (if_neg hs).trans (if_pos hl)

/-- Outside both windows the pulse is bad. -/
theorem classify_bad (hs : ¬ IsShort c n) (hl : ¬ IsLong c n) : classify c n.toNat = .bad :=
  (if_neg hs).trans (if_neg hl)

end

/-! ## The modes at a transition (43_rf433.md R222 to R224) -/

section
variable {s : State}

/-- PRE at a transition to 1 (R222). -/
theorem rfPre_high (h : s.rf.sample = true) :
    rfPre true s = s.setRf { s.rf with count := 0, syncCount := 0, mode := .sync } := by
  rw [rfPre, h]
  rfl

/-- PRE at a transition to 0 (R222). -/
theorem rfPre_low (h : s.rf.sample = false) : rfPre true s = s := by
  rw [rfPre, h]
  rfl

/-- SYNC at the end of a bad pulse (R223). -/
theorem rfSync_bad (hs : ¬ IsShort s.cfg s.rf.count) (hl : ¬ IsLong s.cfg s.rf.count) :
    rfSync true s = setMode .pre s := by
  rw [rfSync, if_pos rfl, classify_bad hs hl]

/-- SYNC at the end of a short pulse (R223). -/
theorem rfSync_of_short (hs : IsShort s.cfg s.rf.count) : rfSync true s = rfSyncShort s := by
  rw [rfSync, if_pos rfl, classify_short hs]

/-- SYNC at the end of a long pulse (R223). -/
theorem rfSync_of_long (hs : ¬ IsShort s.cfg s.rf.count) (hl : IsLong s.cfg s.rf.count) :
    rfSync true s = rfSyncLong s := by
  rw [rfSync, if_pos rfl, classify_long hs hl]

/-- The lock: a long low after enough regular transitions (R223). -/
theorem rfSyncLong_lock (hlow : s.rf.lastSample = false) (hmin : 2 * s.cfg.syncPulseMin ≤ s.rf.syncCount.toNat) :
    rfSyncLong s = s.setRf { s.rf with mode := .data, manBits := 0, numMB := 0, curByte := 0, count := 0 } :=
  if_pos (by simp [hlow, hmin])

/-- Any other long pulse in SYNC goes back to PRE (R223). -/
theorem rfSyncLong_abort (h : s.rf.lastSample = true ∨ s.rf.syncCount.toNat < 2 * s.cfg.syncPulseMin) :
    rfSyncLong s = setMode .pre s :=
  if_neg (by rcases h with h | h <;> simp [h])

/-- DATA at the end of a bad pulse (R224). -/
theorem rfData_bad (hs : ¬ IsShort s.cfg s.rf.count) (hl : ¬ IsLong s.cfg s.rf.count) :
    rfData true s = .ok (setMode .pre s) := by
  rw [rfData, if_pos rfl, classify_bad hs hl]

/-- DATA at the end of a short pulse (R224). -/
theorem rfData_of_short (hs : IsShort s.cfg s.rf.count) : rfData true s = rfDataEdge s := by
  rw [rfData, if_pos rfl, classify_short hs]

/-- DATA at the end of a long pulse, whose level is added once more (R224). -/
theorem rfData_of_long {u : State} (hs : ¬ IsShort s.cfg s.rf.count) (hl : IsLong s.cfg s.rf.count)
    (hu : addManBit s.rf.lastSample s = .ok u) : rfData true s = rfDataEdge u := by
  rw [rfData, if_pos rfl, classify_long hs hl]
  dsimp only
  rw [hu]

/-- A 1 with every byte received ends the frame (R224). -/
theorem rfDataEdge_end (h : s.rf.sample = true ∧ s.rf.curByte = s.rf.maxBytes) :
    rfDataEdge s = .ok (setMode .msg s) := if_pos h

/-- Anything else adds the new level (R224). -/
theorem rfDataEdge_add {t : State} (h : ¬ (s.rf.sample = true ∧ s.rf.curByte = s.rf.maxBytes))
    (ht : addManBit s.rf.sample s = .ok t) : rfDataEdge s = .ok (t.setRf { t.rf with count := 0 }) := by
  rw [rfDataEdge, if_neg h, ht]

/-- A bit added leaves the samples and the mode (R225). -/
theorem addManBit_sample_mode {b : Bool} {t : State} (h : addManBit b s = .ok t) :
    t.rf.sample = s.rf.sample ∧ t.rf.mode = s.rf.mode := by
  rcases addManBit_cases h with ⟨-, w, rfl⟩ | ⟨-, w, m, st, target, -, rfl⟩ <;> exact ⟨rfl, rfl⟩

end

/-- The end test and the add of DATA, as the whole tick answers them from the state `u` that the flush leaves (R224). -/
theorem rfHandler_dataEdge {s u : State} (hx : acceptedSample s ≠ s.rf.lastSample) (hm : s.rf.mode = .data)
    (hflush : rfData true (sampled s) = rfDataEdge u) (hsample : u.rf.sample = acceptedSample s) :
    (acceptedSample s = true ∧ u.rf.curByte = u.rf.maxBytes →
      rfHandler s = .ok { u with rf := { u.rf with mode := .msg, lastSample := acceptedSample s } }) ∧
    (∀ t, ¬ (acceptedSample s = true ∧ u.rf.curByte = u.rf.maxBytes) → addManBit (acceptedSample s) u = .ok t →
      rfHandler s = .ok { t with rf := { t.rf with count := 0, lastSample := acceptedSample s } }) := by
  rw [← hsample]
  refine ⟨fun hend => ?_, fun t hgo ht => ?_⟩
  · exact rfHandler_data_edge hx hm (hflush.trans (rfDataEdge_end hend))
  · rw [← (addManBit_sample_mode ht).1]
    exact rfHandler_data_edge hx hm (hflush.trans (rfDataEdge_add hgo ht))

end Sys2Proof.Machine

namespace Sys2Proof.Claims

open Sys2Proof.Machine

/-- Settles O43: without a transition every receiving mode's part of the tick is empty. -/
theorem rfDebounce : Obligations.RfDebounce := by
  refine fun s => ⟨rfHandler_stopped, fun hmsg hidle hsame => ?_⟩
  rw [rfHandler_running hmsg hidle, bne_eq_false_iff_eq.2 hsame, rfModeStep_still, sampled, hsame]
  rfl

/-- Settles O44: by the level the transition goes to. -/
theorem rfPre : Obligations.RfPre := by
  intro s hm hx
  rw [rfHandler_pre_edge hx hm]
  refine ⟨fun hhigh => ?_, fun hlow => ?_⟩
  · rw [rfPre_high (s := sampled s) hhigh, ← hhigh]
    rfl
  · rw [rfPre_low (s := sampled s) hlow, ← hlow]
    rfl

/-- Settles O45: by the class of the pulse, and for a long one by whether it is the lock. -/
theorem rfSync : Obligations.RfSync := by
  intro s hm hx c n x abort
  have htick := rfHandler_sync_edge hx hm
  refine ⟨fun hs hl => ?_, fun hs => ?_, fun hs hl hlow hmin => ?_, fun hs hl habort => ?_⟩
  · rw [htick, rfSync_bad (s := sampled s) hs hl]
    rfl
  · rw [htick, rfSync_of_short (s := sampled s) hs, ← hm]
    rfl
  · rw [htick, rfSync_of_long (s := sampled s) hs hl, rfSyncLong_lock (s := sampled s) hlow hmin]
    rfl
  · rw [htick, rfSync_of_long (s := sampled s) hs hl, rfSyncLong_abort (s := sampled s) habort]
    rfl

/-- Settles O46: a bad pulse goes to PRE; after the flush of a long pulse, short and long end in the same edge. -/
theorem rfData : Obligations.RfData := by
  intro s hm hx c n x s1 edge
  refine ⟨fun hs hl => ?_, fun hs => ?_, fun hs hl u hu => ?_⟩
  · exact rfHandler_data_edge hx hm (rfData_bad (s := sampled s) hs hl)
  · exact rfHandler_dataEdge hx hm (rfData_of_short (s := sampled s) hs) rfl
  · exact rfHandler_dataEdge hx hm (rfData_of_long (s := sampled s) hs hl hu) (addManBit_sample_mode hu).1

end Sys2Proof.Claims
end

section
/-! SUPPORT. The bit assembler as equations: a bit shifted in, the byte the sixteenth one completes, and the length the
first byte of a frame gives (43_rf433.md R225 to R227). -/

namespace Sys2Proof.Machine

/-! ## The length of a frame (43_rf433.md R227) -/

/-- The byte about to be counted gives the frame's length: the first one of a length-prefixed frame. -/
def learnsLength (r : RfRecord) : Bool := r.lenpfx && decide (r.curByte = 0)

/-- The byte just counted is the first one exactly where none was counted before. -/
theorem learnsLength_iff {r : RfRecord} : r.lenpfx = true ∧ r.curByte + 1 = 1 ↔ learnsLength r = true := by
  have hfirst : r.curByte + 1 = 1 ↔ r.curByte = 0 := by bv_omega
  rw [learnsLength, Bool.and_eq_true, decide_eq_true_iff, hfirst]

/-- A learned length that differs from the byte received raises RF_CLAMP. -/
theorem learnLength_eq_clamped (v : Byte) (s : State) : learnLength v s = { s with
    status := { s.status with rfClamp := s.status.rfClamp || decide (learnedLength v s.rf.capBytes ≠ v) }
    rf := { s.rf with maxBytes := learnedLength v s.rf.capBytes } } := by
  by_cases hl : learnedLength v s.rf.capBytes = v
  · simp [learnLength, hl, State.setRf]
  · simp [learnLength, hl, State.setRf, raiseRfClamp, State.setStatus]

/-! ## The byte (43_rf433.md R226) -/

/-- BUF after a byte has been received: the store is inside the frame's capacity only. -/
def bufAfterByte (s : State) (v : Byte) : List Host.Cell :=
  if s.rf.curByte.toNat < s.rf.capBytes.toNat then cellStore s.buf s.rf.curByte.toNat v else s.buf

/-- A byte received inside the capacity reads back. -/
theorem cellAt_bufAfterByte_same {s : State} (v : Byte) (h : s.rf.curByte.toNat < s.rf.capBytes.toNat) :
    cellAt (bufAfterByte s v) s.rf.curByte.toNat = some v := by
  rw [bufAfterByte, if_pos h, cellAt_cellStore_same]

/-- Every other byte, and beyond the capacity every byte, is as before. -/
theorem cellAt_bufAfterByte_other {s : State} (v : Byte) {a : Nat}
    (h : a ≠ s.rf.curByte.toNat ∨ s.rf.capBytes.toNat ≤ s.rf.curByte.toNat) :
    cellAt (bufAfterByte s v) a = cellAt s.buf a := by
  unfold bufAfterByte
  split
  · exact cellAt_cellStore_other _ _ (h.resolve_right (by omega))
  · rfl

/-- The state after a byte has been received: stored, counted, and taken as the length where it is one. -/
def byteReceived (s : State) (v : Byte) : State :=
  let l := learnedLength v s.rf.capBytes
  { s with
    buf := bufAfterByte s v
    status := { s.status with rfClamp := s.status.rfClamp || (learnsLength s.rf && decide (l ≠ v)) }
    rf := { s.rf with curByte := s.rf.curByte + 1, maxBytes := if learnsLength s.rf then l else s.rf.maxBytes } }

/-- `EmitByte` receives the emitted byte, where the frame's capacity is inside BUF. -/
theorem emitByte_eq {s : State} (hcap : s.rf.capBytes.toNat ≤ s.cfg.rfBufCap) :
    emitByte s = .ok (byteReceived s (emittedByte s)) := by
  have hstore : (if s.rf.curByte.toNat < s.rf.capBytes.toNat then bufStore s.rf.curByte.toNat (emittedByte s) s
      else .ok s) = .ok (s.setBuf (bufAfterByte s (emittedByte s))) := by
    unfold bufAfterByte
    split
    · exact if_pos (by omega)
    · rfl
  rw [emitByte, hstore]
  show Except.ok (if s.rf.lenpfx = true ∧ s.rf.curByte + 1 = 1 then _ else _) = _
  simp only [learnsLength_iff, byteReceived]
  cases learnsLength s.rf
  · rw [if_neg Bool.false_ne_true, if_neg Bool.false_ne_true, Bool.false_and, Bool.or_false]
    rfl
  · rw [if_pos rfl, if_pos rfl, learnLength_eq_clamped, Bool.true_and]
    rfl

/-! ## The bits (43_rf433.md R225) -/

/-- The state with a bit shifted in at the bottom of `rf.manBits` and counted. -/
def bitShifted (b : Bool) (s : State) : State :=
  s.setRf { s.rf with manBits := (s.rf.manBits <<< 1) ||| (if b then 1 else 0), numMB := s.rf.numMB + 1 }

/-- A bit that is not the sixteenth is only shifted in. -/
theorem addManBit_shift (b : Bool) {s : State} (h : s.rf.numMB ≠ 15) : addManBit b s = .ok (bitShifted b s) :=
  if_neg (show ¬ s.rf.numMB + 1 = 16 by bv_omega)

/-- The sixteenth bit completes a byte, and the count of bits restarts. -/
theorem addManBit_sixteenth (b : Bool) {s : State} (h : s.rf.numMB = 15)
    (hcap : s.rf.capBytes.toNat ≤ s.cfg.rfBufCap) :
    addManBit b s =
      let u := byteReceived (bitShifted b s) (emittedByte (bitShifted b s))
      .ok (u.setRf { u.rf with numMB := 0 }) := by
  have h16 : (bitShifted b s).rf.numMB = 16 := by
    show s.rf.numMB + 1 = 16
    rw [h]
    rfl
  have hemit := emitByte_eq (s := bitShifted b s) hcap
  show (if (bitShifted b s).rf.numMB = 16 then _ else _) = _
  rw [if_pos h16, ← bitShifted, hemit]

end Sys2Proof.Machine

namespace Sys2Proof.Claims

open Sys2Proof.Machine

/-- Settles O47: by whether the bit is the sixteenth; the byte it completes is the model's emitted byte. -/
theorem rfBitAssembler : Obligations.RfBitAssembler := by
  intro s b w v n learn l
  refine ⟨addManBit_shift b, fun h15 hcap => ⟨_, addManBit_sixteenth b h15 hcap, rfl, fun hlt => ?_, fun a ha => ?_⟩⟩
  · exact cellAt_bufAfterByte_same (s := bitShifted b s) v hlt
  · exact cellAt_bufAfterByte_other (s := bitShifted b s) v ha

end Sys2Proof.Claims
end

section
/-! SUPPORT. The changes of `rf.mode` (43_rf433.md R231): those of an RF tick with their causes, those of the commands,
and those of a whole cycle. -/

namespace Sys2Proof.Machine

/-! ## The modes an RF tick can leave (43_rf433.md R222 to R224) -/

/-- A pulse is short, long or bad (R221). -/
theorem pulse_cases (c : Config) (n : Half) :
    IsShort c n ∨ (¬ IsShort c n ∧ IsLong c n) ∨ (¬ IsShort c n ∧ ¬ IsLong c n) := by
  by_cases hs : IsShort c n
  · exact .inl hs
  · by_cases hl : IsLong c n
    · exact .inr (.inl ⟨hs, hl⟩)
    · exact .inr (.inr ⟨hs, hl⟩)

section
variable {s t : State}

/-- PRE is left at a transition to 1 only, for SYNC (R222). -/
theorem rfPre_mode : (rfPre true s).rf.mode = s.rf.mode ∨ ((rfPre true s).rf.mode = .sync ∧ s.rf.sample = true) := by
  cases hx : s.rf.sample
  · exact .inl (congrArg (·.rf.mode) (rfPre_low hx))
  · exact .inr ⟨congrArg (·.rf.mode) (rfPre_high hx), rfl⟩

/-- SYNC is left for PRE by a bad pulse, by too many regular transitions or by a long pulse that is no lock, and for
DATA by the lock (R223). -/
theorem rfSync_mode (hm : s.rf.mode = .sync) :
    let m := (rfSync true s).rf.mode
    m = .sync ∨
    (m = .pre ∧ ((¬ IsShort s.cfg s.rf.count ∧ ¬ IsLong s.cfg s.rf.count) ∨
      (IsShort s.cfg s.rf.count ∧ 2 * s.cfg.syncPulseMax < (s.rf.syncCount + 1).toNat) ∨
      (IsLong s.cfg s.rf.count ∧ s.rf.lastSample = true) ∨
      (IsLong s.cfg s.rf.count ∧ s.rf.syncCount.toNat < 2 * s.cfg.syncPulseMin))) ∨
    (m = .data ∧ IsLong s.cfg s.rf.count ∧ s.rf.lastSample = false ∧
      2 * s.cfg.syncPulseMin ≤ s.rf.syncCount.toNat) := by
  rcases pulse_cases s.cfg s.rf.count with hs | ⟨hs, hl⟩ | ⟨hs, hl⟩
  · rw [rfSync_of_short hs]
    by_cases hmax : 2 * s.cfg.syncPulseMax < (s.rf.syncCount + 1).toNat
    · exact .inr (.inl ⟨if_pos hmax, .inr (.inl ⟨hs, hmax⟩)⟩)
    · exact .inl ((if_neg hmax).trans hm)
  · rw [rfSync_of_long hs hl]
    rcases Nat.lt_or_ge s.rf.syncCount.toNat (2 * s.cfg.syncPulseMin) with hmin | hmin
    · rw [rfSyncLong_abort (.inr hmin)]
      exact .inr (.inl ⟨rfl, .inr (.inr (.inr ⟨hl, hmin⟩))⟩)
    · cases hlast : s.rf.lastSample
      · rw [rfSyncLong_lock hlast hmin]
        exact .inr (.inr ⟨rfl, hl, rfl, hmin⟩)
      · rw [rfSyncLong_abort (.inl hlast)]
        exact .inr (.inl ⟨rfl, .inr (.inr (.inl ⟨hl, rfl⟩))⟩)
  · rw [rfSync_bad hs hl]
    exact .inr (.inl ⟨rfl, .inl ⟨hs, hl⟩⟩)

/-- The end test and the add leave DATA at the end of the frame only, for MSG (R224). -/
theorem rfDataEdge_mode (h : rfDataEdge s = .ok t) : t.rf.mode = s.rf.mode ∨
    (t.rf.mode = .msg ∧ s.rf.sample = true ∧ t.rf.curByte = t.rf.maxBytes) := by
  by_cases hend : s.rf.sample = true ∧ s.rf.curByte = s.rf.maxBytes
  · cases (rfDataEdge_end hend).symm.trans h
    exact .inr ⟨rfl, hend⟩
  · cases hu : addManBit s.rf.sample s with
    | error f => rw [rfDataEdge, if_neg hend, hu] at h; cases h
    | ok u =>
      cases (rfDataEdge_add hend hu).symm.trans h
      exact .inl (addManBit_sample_mode hu).2

/-- DATA is left for PRE by a bad pulse, and for MSG by the end of the frame (R224). -/
theorem rfData_mode (h : rfData true s = .ok t) : t.rf.mode = s.rf.mode ∨
    (t.rf.mode = .pre ∧ ¬ IsShort s.cfg s.rf.count ∧ ¬ IsLong s.cfg s.rf.count) ∨
    (t.rf.mode = .msg ∧ (IsShort s.cfg s.rf.count ∨ IsLong s.cfg s.rf.count) ∧ s.rf.sample = true ∧
      t.rf.curByte = t.rf.maxBytes) := by
  rcases pulse_cases s.cfg s.rf.count with hs | ⟨hs, hl⟩ | ⟨hs, hl⟩
  · rw [rfData_of_short hs] at h
    exact (rfDataEdge_mode h).imp_right fun ⟨hm, hend⟩ => .inr ⟨hm, .inl hs, hend⟩
  · cases hu : addManBit s.rf.lastSample s with
    | error f =>
      rw [rfData, if_pos rfl, classify_long hs hl] at h
      simp only [hu] at h
      cases h
    | ok u =>
      rw [rfData_of_long hs hl hu] at h
      obtain ⟨hsample, hmode⟩ := addManBit_sample_mode hu
      rw [← hsample, ← hmode]
      exact (rfDataEdge_mode h).imp_right fun ⟨hm, hend⟩ => .inr ⟨hm, .inr hl, hend⟩
  · cases (rfData_bad hs hl).symm.trans h
    exact .inr (.inl ⟨rfl, hs, hl⟩)

end

/-- The rows of R231's table that an RF tick at a transition can take, each with its cause. -/
def TickMoves (s t : State) : Prop :=
  let c := s.cfg
  let n := tickCount s
  let x := acceptedSample s
  (s.rf.mode = .pre ∧ t.rf.mode = .sync ∧ x = true) ∨
  (s.rf.mode = .sync ∧ t.rf.mode = .pre ∧
    ((¬ IsShort c n ∧ ¬ IsLong c n) ∨
      (IsShort c n ∧ 2 * c.syncPulseMax < (s.rf.syncCount + 1).toNat) ∨
      (IsLong c n ∧ s.rf.lastSample = true) ∨
      (IsLong c n ∧ s.rf.syncCount.toNat < 2 * c.syncPulseMin))) ∨
  (s.rf.mode = .sync ∧ t.rf.mode = .data ∧ IsLong c n ∧ s.rf.lastSample = false ∧
    2 * c.syncPulseMin ≤ s.rf.syncCount.toNat) ∨
  (s.rf.mode = .data ∧ t.rf.mode = .pre ∧ ¬ IsShort c n ∧ ¬ IsLong c n) ∨
  (s.rf.mode = .data ∧ t.rf.mode = .msg ∧ (IsShort c n ∨ IsLong c n) ∧ x = true ∧ t.rf.curByte = t.rf.maxBytes)

/-- An RF tick keeps the mode, or takes a row of the table at a transition. -/
theorem rfHandler_mode {s t : State} (h : rfHandler s = .ok t) :
    t.rf.mode = s.rf.mode ∨ (acceptedSample s ≠ s.rf.lastSample ∧ TickMoves s t) := by
  rcases rfHandler_cases h with ⟨-, rfl⟩ | ⟨tr, u, htr, rfl, hu⟩
  · exact .inl rfl
  rw [rfSample_eq_sampled] at htr hu
  have hcase : rfModeStep s.rf.mode tr (sampled s) = .ok u := by
    rcases hu with ⟨hm, rfl⟩ | ⟨hm, rfl⟩ | ⟨hm, hu⟩ <;> rw [hm]
    · rfl
    · rfl
    · exact hu
  cases tr with
  | false =>
    rw [rfModeStep_still] at hcase
    cases hcase
    exact .inl rfl
  | true =>
    have hx : acceptedSample s ≠ s.rf.lastSample := bne_iff_ne.1 htr.symm
    rcases hu with ⟨hm, rfl⟩ | ⟨hm, rfl⟩ | ⟨hm, hu⟩
    · exact (rfPre_mode (s := sampled s)).imp_right fun ⟨hsync, hhigh⟩ => ⟨hx, .inl ⟨hm, hsync, hhigh⟩⟩
    · rcases rfSync_mode (s := sampled s) hm with hkeep | ⟨hpre, hcause⟩ | ⟨hdata, hlock⟩
      · exact .inl (hkeep.trans hm.symm)
      · exact .inr ⟨hx, .inr (.inl ⟨hm, hpre, hcause⟩)⟩
      · exact .inr ⟨hx, .inr (.inr (.inl ⟨hm, hdata, hlock⟩))⟩
    · rcases rfData_mode hu with hkeep | ⟨hpre, hbad⟩ | ⟨hmsg, hend⟩
      · exact .inl hkeep
      · exact .inr ⟨hx, .inr (.inr (.inr (.inl ⟨hm, hpre, hbad⟩)))⟩
      · exact .inr ⟨hx, .inr (.inr (.inr (.inr ⟨hm, hmsg, hend⟩)))⟩

/-- The mode before and after, for each row of the table that an RF tick can take. -/
def tickMovePairs : List (RfMode × RfMode) :=
  [(.pre, .sync), (.sync, .pre), (.sync, .data), (.data, .pre), (.data, .msg)]

/-- Each row with its cause is a row of the table. -/
theorem TickMoves.mem_tickMovePairs {s t : State} (h : TickMoves s t) : (s.rf.mode, t.rf.mode) ∈ tickMovePairs := by
  rcases h with ⟨hs, ht, -⟩ | ⟨hs, ht, -⟩ | ⟨hs, ht, -⟩ | ⟨hs, ht, -⟩ | ⟨hs, ht, -⟩ <;> rw [hs, ht] <;> decide

/-- INT's dispatch keeps the mode, or the RF tick it serves takes a row of the table. -/
theorem intDispatch_mode {s t : State} (h : intDispatch s = .ok t) :
    t.rf.mode = s.rf.mode ∨ (s.rf.mode, t.rf.mode) ∈ tickMovePairs := by
  rcases intDispatch_cases h with rfl | ⟨src, u, -, -, hu, rfl⟩
  · exact .inl rfl
  · cases src with
    | tick => cases hu; exact .inl rfl
    | rf => exact (rfHandler_mode hu).imp_right fun hmove => hmove.2.mem_tickMovePairs
    | evt k =>
      cases hu
      rcases evtHandler_cases k (clearPending (.evt k) s) with ⟨-, he⟩ | ⟨-, he⟩ <;> rw [he] <;> exact .inl rfl

/-! ## The modes a command can set (43_rf433.md R211 to R217) -/

/-- The command `i` sets the mode `m`: the rows of R231's table that are the commands'. -/
def CommandSetsMode (i : Instr) (m : RfMode) : Prop :=
  (m = .idle ∧ (i = .rfStop ∨ ∃ pin baud, i = .rfInit pin baud)) ∨
  (m = .pre ∧ (i = .rfBegin ∨ ∃ n, i = .rfBeginBytes n))

/-- An effect of a command keeps the mode, or sets the one that is the command's. -/
theorem CommandEffect.rfMode {c : Config} {i : Instr} {u v : State} (h : CommandEffect c i u v) :
    v.rf.mode = u.rf.mode ∨ CommandSetsMode i v.rf.mode := by
  cases h with
  | rfInit pin baud => exact .inr (.inl ⟨rfl, .inr ⟨pin, baud, rfl⟩⟩)
  | rfStop => exact .inr (.inl ⟨rfl, .inl rfl⟩)
  | rfBegin => exact .inr (.inr ⟨rfl, .inl rfl⟩)
  | rfBeginBytes m => exact .inr (.inr ⟨rfl, .inr ⟨m, rfl⟩⟩)
  | _ => exact .inl rfl

/-- A command's cycle keeps the mode, or sets the one that is the command's. -/
theorem exec_mode {i : Instr} {s t : State} (h : exec i s = .next t) :
    t.rf.mode = s.rf.mode ∨ CommandSetsMode i t.rf.mode := by
  refine exec_of_effects (fun u => u.rf.mode = s.rf.mode ∨ CommandSetsMode i u.rf.mode)
    (fun u v he hu => ?_) h (.inl rfl)
  rcases he.rfMode with hv | hv
  · rwa [hv]
  · exact .inr hv

/-- A cycle without reset keeps the mode, takes a row of an RF tick, or sets the mode of the command in progress. -/
theorem step_mode {s t : State} (hrst : (nextInput s).rst = false) (h : step s = .next t) :
    t.rf.mode = s.rf.mode ∨ (s.rf.mode, t.rf.mode) ∈ tickMovePairs ∨
      ∃ i, s.seq.busy = true ∧ decode s.seq.cmd = .ok i ∧ CommandSetsMode i t.rf.mode := by
  obtain ⟨s1, h1, ht⟩ := step_after_int hrst h
  have htick : s1.rf.mode = s.rf.mode ∨ (s.rf.mode, s1.rf.mode) ∈ tickMovePairs := by
    have hint := intDispatch_mode h1
    rwa [(beforeInt_frame s).2.2] at hint
  have kept : t.rf.mode = s1.rf.mode → t.rf.mode = s.rf.mode ∨ (s.rf.mode, t.rf.mode) ∈ tickMovePairs :=
    fun hmode => by rwa [hmode]
  rcases ht with rfl | ⟨hb, i, v, hi, hv, rfl⟩
  · exact (kept rfl).imp_right .inl
  · rcases exec_mode hv with hmode | hset
    · exact (kept hmode).imp_right .inl
    · exact .inr (.inr ⟨i, hb, hi, hset⟩)

end Sys2Proof.Machine

namespace Sys2Proof.Claims

open Sys2Proof.Machine

/-- Settles O48: the tick's rows, the commands' rows, and in a cycle one of the two, or reset. -/
theorem rfModeTable : Obligations.RfModeTable := by
  refine ⟨fun s t => rfHandler_mode, fun i s t => exec_mode, fun s t h => ?_⟩
  cases hrst : (nextInput s).rst
  · rcases step_mode hrst h with hkeep | hmove | hset
    · exact .inl hkeep
    · exact .inr (.inr (.inl hmove))
    · exact .inr (.inr (.inr hset))
  · cases (step_reset hrst).symm.trans h
    exact .inr (.inl ⟨rfl, rfl⟩)

end Sys2Proof.Claims
end

section
/-! SUPPORT. The period of an EVT timer (44_event_dispatcher.md R262): which `K` is chosen, and that the period it gives
is the exact one. -/

namespace Sys2Proof.Machine

/-! ## The search for `K` -/

/-- What `firstExact` finds is the smallest candidate that divides exactly. -/
theorem firstExact_some {C ps fuel k j : Nat} (h : firstExact C ps fuel k = some j) :
    k ≤ j ∧ j < k + fuel ∧ C % (ps * j) = 0 ∧ ∀ i, k ≤ i → i < j → C % (ps * i) ≠ 0 := by
  induction fuel generalizing k with
  | zero => cases h
  | succ fuel ih =>
    rw [firstExact] at h
    split at h
    · rename_i hexact
      cases h
      exact ⟨Nat.le_refl _, by omega, hexact, fun i hlo hhi => absurd hlo (Nat.not_le.2 hhi)⟩
    · rename_i hinexact
      obtain ⟨hlo, hhi, hexact, hmin⟩ := ih h
      refine ⟨by omega, by omega, hexact, fun i hi hij => ?_⟩
      rcases Nat.eq_or_lt_of_le hi with rfl | hlt
      · exact hinexact
      · exact hmin i hlt hij

/-- `firstExact` finds nothing only where no candidate divides exactly. -/
theorem firstExact_none {C ps fuel k : Nat} (h : firstExact C ps fuel k = none) :
    ∀ i, k ≤ i → i < k + fuel → C % (ps * i) ≠ 0 := by
  induction fuel generalizing k with
  | zero => exact fun i hlo hhi => absurd hlo (Nat.not_le.2 hhi)
  | succ fuel ih =>
    rw [firstExact] at h
    split at h
    · cases h
    · rename_i hinexact
      intro i hlo hhi
      rcases Nat.eq_or_lt_of_le hlo with rfl | hlt
      · exact hinexact
      · exact ih h i hlt (by omega)

/-- `Kmin`: the fewest EVT ticks of the longest period that make up a unit (R262). -/
def evtKmin (c : Config) (C : Nat) : Nat := (C + psMax c * 2 ^ c.tmrW - 1) / (psMax c * 2 ^ c.tmrW)

/-- `k` ticks on the last divisor make up a unit of `C` cycles exactly, and it is a candidate of R262's search. -/
abbrev ExactFrom (c : Config) (C k : Nat) : Prop := evtKmin c C ≤ k ∧ k ≤ C / psMax c ∧ C % (psMax c * k) = 0

/-- The two answers of R262's search: the smallest exact `K`, or `Kmin` where there is none. -/
theorem evtDivision_cases (c : Config) (C : Nat) :
    (ExactFrom c C (evtDivision c C) ∧
      ∀ k, evtKmin c C ≤ k → k < evtDivision c C → C % (psMax c * k) ≠ 0) ∨
    ((¬ ∃ k, ExactFrom c C k) ∧ evtDivision c C = evtKmin c C) := by
  have hdiv : evtDivision c C =
      (firstExact C (psMax c) (C / psMax c + 1 - evtKmin c C) (evtKmin c C)).getD (evtKmin c C) := rfl
  cases hfind : firstExact C (psMax c) (C / psMax c + 1 - evtKmin c C) (evtKmin c C) with
  | some k =>
    obtain ⟨hlo, hhi, hexact, hmin⟩ := firstExact_some hfind
    rw [hdiv, hfind, Option.getD_some]
    exact .inl ⟨⟨hlo, by omega, hexact⟩, hmin⟩
  | none =>
    rw [hdiv, hfind]
    exact .inr ⟨fun ⟨k, hlo, hhi, hexact⟩ => firstExact_none hfind k hlo (by omega) hexact, rfl⟩

/-! ## The period -/

/-- Where one unit does not fit, `TimerFit` answers the last divisor. -/
theorem timerFit_of_not_fits {c : Config} {C : Nat} (h : (timerFit c C).fits = false) :
    (timerFit c C).ps = psMax c := by
  rcases timerFit_cases c C with ⟨ps, pr, -, he⟩ | ⟨-, he⟩ <;> rw [he] at h ⊢
  cases h

/-- Where one unit does not fit, `EvtFit` answers the last divisor and the `K` of the search. -/
theorem evtFit_of_not_fits {c : Config} {C : Nat} (h : (timerFit c C).fits = false) :
    evtFit c C = ⟨psMax c, truncatedPeriod c C (C / (psMax c * evtDivision c C)), evtDivision c C⟩ :=
  if_neg (ne_true_of_eq_false h)

/-- `Kmin` is the least number of longest periods that cover a unit. -/
theorem evtKmin_le_iff {c : Config} {C k : Nat} (hps : 0 < psMax c) :
    evtKmin c C ≤ k ↔ C ≤ psMax c * 2 ^ c.tmrW * k :=
  ceilDiv_le_iff_le_mul (Nat.mul_pos hps (Nat.two_pow_pos _))

/-- From `Kmin` on, the period fits the timer. -/
theorem div_le_of_evtKmin_le {c : Config} {C k : Nat} (hps : 0 < psMax c) (hk : evtKmin c C ≤ k) :
    C / (psMax c * k) ≤ 2 ^ c.tmrW := by
  refine Nat.div_le_of_le_mul ?_
  calc C ≤ psMax c * 2 ^ c.tmrW * k := (evtKmin_le_iff hps).1 hk
    _ = psMax c * k * 2 ^ c.tmrW := by ring

/-- `Kmin` ticks are no more than the prescaler periods of a unit, where there is one. -/
theorem evtKmin_le_div {c : Config} {C : Nat} (hw : 1 ≤ c.tmrW) (hps : 0 < psMax c) (hle : psMax c ≤ C) :
    evtKmin c C ≤ C / psMax c := by
  have htwo : 2 ≤ 2 ^ c.tmrW := Nat.le_self_pow (by omega) 2
  have hpos : 1 ≤ C / psMax c := Nat.div_pos hle hps
  refine (evtKmin_le_iff hps).2 ?_
  calc C ≤ psMax c * (C / psMax c + 1) := (Nat.lt_mul_div_succ C hps).le
    _ ≤ psMax c * (2 ^ c.tmrW * (C / psMax c)) := Nat.mul_le_mul_left _ (by nlinarith)
    _ = psMax c * 2 ^ c.tmrW * (C / psMax c) := (Nat.mul_assoc ..).symm

/-- A quotient the timer can hold is not cut. -/
theorem truncatedPeriod_succ {c : Config} {C q : Nat} (hlo : 1 ≤ q) (hhi : q ≤ 2 ^ c.tmrW) :
    truncatedPeriod c C q + 1 = q := by
  rw [truncatedPeriod, if_neg (by omega), Nat.mod_eq_of_lt (by omega)]
  omega

/-- `K` ticks of at least one prescaler period each make up a unit. -/
theorem one_le_div_of_le {ps C k : Nat} (hps : 0 < ps) (hk : 0 < k) (hle : k ≤ C / ps) : 1 ≤ C / (ps * k) :=
  Nat.div_pos (Nat.mul_comm k ps ▸ (Nat.le_div_iff_mul_le hps).1 hle) (Nat.mul_pos hps hk)

end Sys2Proof.Machine

namespace Sys2Proof.Claims

open Sys2Proof.Machine

/-- Settles O21: by the two answers of the search for `K`; any `K` from `Kmin` to the prescaler periods of a unit gives
a period that fits the timer. -/
theorem evtFit : Obligations.EvtFit := by
  intro c C hv hC
  refine ⟨fun hfits => if_pos hfits, fun hfits hle => ?_⟩
  have hpr := (evtFit_inRange hv C).2
  rw [timerFit_of_not_fits hfits] at hle ⊢
  obtain ⟨hw, -, hne, -, hbounds, -, -⟩ := hv
  have hpos : 0 < psMax c := (hbounds _ (psMax_mem hne)).1
  have hmin : evtKmin c C ≤ C / psMax c := evtKmin_le_div hw hpos hle
  have hkpos : 0 < evtKmin c C :=
    Nat.pos_of_ne_zero fun h0 => Nat.not_le.2 hC ((evtKmin_le_iff hpos).1 h0.le)
  have period : ∀ k, evtKmin c C ≤ k → k ≤ C / psMax c →
      truncatedPeriod c C (C / (psMax c * k)) + 1 = C / (psMax c * k) := fun k hlo hhi =>
    truncatedPeriod_succ (one_le_div_of_le hpos (Nat.lt_of_lt_of_le hkpos hlo) hhi) (div_le_of_evtKmin_le hpos hlo)
  rw [evtFit_of_not_fits hfits] at hpr ⊢
  rcases evtDivision_cases c C with ⟨⟨hlo, hhi, hexact⟩, hleast⟩ | ⟨hnone, hK⟩
  · exact ⟨rfl, hlo, period _ hlo hhi, hpr, fun _ => ⟨hexact, hleast⟩, fun hno => absurd ⟨_, hlo, hhi, hexact⟩ hno⟩
  · exact ⟨rfl, hK.ge, period _ hK.ge (hK ▸ hmin), hpr, fun hex => absurd hex hnone, fun _ => hK⟩

end Sys2Proof.Claims
end

section
/-! SUPPORT. The event dispatcher: what a run of a slot's handler leaves in the slot and on the callback ports, over
many runs and in a clock cycle, and the actions of the two commands (44_event_dispatcher.md R261 to R268). -/

namespace Sys2Proof.Machine

/-! ## One run of the handler (R266) -/

/-- The next run of the slot's handler reaches the limit. -/
abbrev CallbackDue (e : EvtSlot) : Prop := e.limit.toNat ≤ (e.count + 1).toNat

/-- The count is cut to 32 bits before it is compared with the limit. -/
theorem callbackDue_iff (e : EvtSlot) : CallbackDue e ↔ e.limit.toNat ≤ (e.count.toNat + 1) % 2 ^ 32 := by
  rw [CallbackDue, BitVec.toNat_add]
  rfl

/-- The callback ports as slot `k` drives them (R267). -/
def slotCallback (k : Nat) (e : EvtSlot) : CallbackPort := ⟨true, BitVec.ofNat 3 k, e.cb⟩

/-- The slot after a run of its handler: the count advances, or restarts at the limit. -/
def countedSlot (e : EvtSlot) : EvtSlot := { e with count := if CallbackDue e then 0 else e.count + 1 }

/-- A run of the handler, field by field: the slot counts, and the ports are driven where the callback is due. -/
theorem evtHandler_eq (k : Nat) (s : State) : evtHandler k s = { s with
    evt := s.evt.set k (countedSlot (slotAt s k))
    callback := if CallbackDue (slotAt s k) then slotCallback k (slotAt s k) else s.callback } := by
  rcases evtHandler_cases k s with ⟨hdue, he⟩ | ⟨hbelow, he⟩
  · rw [he, countedSlot, if_pos hdue, if_pos hdue]
    rfl
  · rw [he, countedSlot, if_neg (Nat.not_le.2 hbelow), if_neg (Nat.not_le.2 hbelow)]
    rfl

/-- The slot a run of its handler leaves. -/
theorem slotAt_evtHandler {k : Nat} {s : State} (hk : k < s.evt.length) :
    slotAt (evtHandler k s) k = countedSlot (slotAt s k) := by
  rw [evtHandler_eq]
  exact slotAt_setSlot_same _ hk

/-! ## Many runs of the handler (R266, R268) -/

/-- The slot after `n` runs of its handler from a count of 0: the count is `n` modulo the limit, or 0 for a
limit of 0. -/
def sampledSlot (e : EvtSlot) (n : Nat) : EvtSlot :=
  { e with count := BitVec.ofNat 32 (n % max e.limit.toNat 1) }

/-- The count stays below the limit, so it is stored uncut. -/
theorem sampledSlot_count_toNat (e : EvtSlot) (n : Nat) :
    (sampledSlot e n).count.toNat = n % max e.limit.toNat 1 := by
  have hlt : n % max e.limit.toNat 1 < max e.limit.toNat 1 := Nat.mod_lt _ (by omega)
  have hlimit := e.limit.isLt
  exact (BitVec.toNat_ofNat ..).trans (Nat.mod_eq_of_lt (by omega))

/-- The next count does not wrap. -/
theorem sampledSlot_count_succ_toNat (e : EvtSlot) (n : Nat) :
    ((sampledSlot e n).count + 1).toNat = n % max e.limit.toNat 1 + 1 := by
  have hlt : n % max e.limit.toNat 1 < max e.limit.toNat 1 := Nat.mod_lt _ (by omega)
  have hcount := sampledSlot_count_toNat e n
  have hlimit := e.limit.isLt
  rw [BitVec.toNat_add, hcount]
  exact Nat.mod_eq_of_lt (by change _ + 1 < _; omega)

/-- The callback is due at every `max(limit, 1)`-th run and at no other. -/
theorem callbackDue_sampledSlot (e : EvtSlot) (n : Nat) :
    CallbackDue (sampledSlot e n) ↔ (n + 1) % max e.limit.toNat 1 = 0 := by
  obtain ⟨p, hp⟩ : ∃ p, max e.limit.toNat 1 = p + 1 := Nat.exists_eq_add_one.2 (by omega)
  have hlt : n % (p + 1) < p + 1 := Nat.mod_lt n (Nat.succ_pos p)
  have hdue : CallbackDue (sampledSlot e n) ↔ e.limit.toNat ≤ n % max e.limit.toNat 1 + 1 := by
    rw [← sampledSlot_count_succ_toNat]
    rfl
  rw [hdue, hp, Nat.succ_mod_succ_eq_zero_iff]
  omega

/-- One more run of the handler. -/
theorem countedSlot_sampledSlot (e : EvtSlot) (n : Nat) :
    countedSlot (sampledSlot e n) = sampledSlot e (n + 1) := by
  have hcount : (countedSlot (sampledSlot e n)).count = (sampledSlot e (n + 1)).count := by
    refine BitVec.eq_of_toNat_eq ?_
    rw [sampledSlot_count_toNat, countedSlot]
    by_cases hdue : CallbackDue (sampledSlot e n)
    · rw [if_pos hdue, (callbackDue_sampledSlot e n).1 hdue]
      rfl
    · have hne := mt (callbackDue_sampledSlot e n).2 hdue
      obtain ⟨p, hp⟩ : ∃ p, max e.limit.toNat 1 = p + 1 := Nat.exists_eq_add_one.2 (by omega)
      rw [if_neg hdue, sampledSlot_count_succ_toNat, hp]
      rw [hp, Nat.succ_mod_succ_eq_zero_iff] at hne
      exact (succ_mod_of_ne hne).symm
  exact congrArg (fun x => { e with count := x }) hcount

/-- The slot after `n` runs of its handler; the table keeps its length. -/
theorem slotAt_evtTicks {k : Nat} {s : State} (hk : k < s.evt.length) (h0 : (slotAt s k).count = 0) (n : Nat) :
    (evtTicks k n s).evt.length = s.evt.length ∧ slotAt (evtTicks k n s) k = sampledSlot (slotAt s k) n := by
  induction n with
  | zero =>
    refine ⟨rfl, ?_⟩
    rw [sampledSlot, Nat.zero_mod, ← show (slotAt s k).count = BitVec.ofNat 32 0 from h0]
    rfl
  | succ n ih =>
    obtain ⟨hlen, hslot⟩ := ih
    rw [evtTicks]
    refine ⟨?_, ?_⟩
    · rw [evtHandler_eq]
      exact (List.length_set ..).trans hlen
    · rw [slotAt_evtHandler (hlen ▸ hk), ← countedSlot_sampledSlot, ← hslot]
      rfl

/-! ## The callback ports of a clock cycle (R267) -/

/-- INT serves the EVT slot `k` and its handler reaches the limit. -/
abbrev EmitsCallback (s : State) (k : Nat) : Prop :=
  s.isrBusy = 0 ∧ readySource s = some (.evt k) ∧ CallbackDue (slotAt s k)

/-- INT's dispatch where it serves an EVT slot (60_exceptions.md R295, R298). -/
theorem intDispatch_of_evt {s : State} {k : Nat} (hfree : s.isrBusy = 0) (hsrc : readySource s = some (.evt k)) :
    intDispatch s = .ok ((evtHandler k (clearPending (.evt k) s)).setIsrBusy (isrCycles s.cfg (.evt k))) := by
  rw [intDispatch, if_pos hfree, hsrc]
  rfl

/-- A served EVT slot that reaches its limit drives the ports. -/
theorem intDispatch_callback_of_emits {s t : State} {k : Nat} (h : intDispatch s = .ok t) (hk : EmitsCallback s k) :
    t.callback = slotCallback k (slotAt s k) := by
  obtain ⟨hfree, hsrc, hdue⟩ := hk
  rw [intDispatch_of_evt hfree hsrc, evtHandler_eq] at h
  cases h
  exact if_pos hdue

/-- Else INT's dispatch leaves the ports as they were. -/
theorem intDispatch_callback_of_silent {s t : State} (h : intDispatch s = .ok t) (hnone : ∀ k, ¬ EmitsCallback s k) :
    t.callback = s.callback := by
  rcases intDispatch_cases h with rfl | ⟨src, u, hfree, hsrc, hu, rfl⟩
  · rfl
  · cases src with
    | tick => cases hu; rfl
    | rf =>
      obtain ⟨r, m, st, rfl⟩ := rfHandler_frame hu
      rfl
    | evt k =>
      cases hu
      rw [evtHandler_eq]
      exact if_neg fun hdue => hnone k ⟨hfree, hsrc, hdue⟩

/-- A command's cycle leaves the callback ports to INT. -/
theorem exec_callback {i : Instr} {s t : State} (h : exec i s = .next t) : t.callback = s.callback := by
  refine exec_keeps_view State.callback h fun u v he => ?_
  have hfixed := he.fixed
  simp only [Prod.mk.injEq] at hfixed
  obtain ⟨-, -, -, -, -, -, -, -, hcallback⟩ := hfixed
  exact hcallback

/-! ## The two commands (R261 to R265) -/

/-- The slot operands the EVT commands can use. -/
theorem slotUsable_eq_true {c : Config} {slot : BitVec 4} (h : slot.toNat < c.nEvt) : slotUsable c slot = true :=
  decide_eq_true h

/-- The limit is stored modulo 2^32 (R263). -/
theorem evtLimit_eq_mod (c : Config) (u : BitVec 2) (d : Half) :
    evtLimit c u d = BitVec.ofNat 32 ((d.toNat * (evtFit c (unitCycles c u)).k) % 2 ^ 32) :=
  BitVec.eq_of_toNat_eq (by rw [evtLimit, BitVec.toNat_ofNat, BitVec.toNat_ofNat, Nat.mod_mod])

/-- `EVT_ONTIMER` on a slot that is bound answers `EVT_ERR_USED` and changes nothing else (R264). -/
theorem evtOnTimerAction_used {s : State} {k : Nat} {u : BitVec 2} {d : Half} (h : (slotAt s k).used = true) :
    evtOnTimerAction k u d s = s.setResult evtErrUsed := if_pos h

/-- `EVT_ONTIMER` on a free slot binds it (R261). -/
theorem evtOnTimerAction_free {s : State} {k : Nat} {u : BitVec 2} {d : Half} (h : (slotAt s k).used = false) :
    evtOnTimerAction k u d s = (setEvtSource k true (setSlot k (boundSlot s u d) s)).setResult evtOk :=
  if_neg (ne_true_of_eq_false h)

end Sys2Proof.Machine

namespace Sys2Proof.Claims

open Sys2Proof.Machine

/-- Settles O52: after `n` runs the count is `n` modulo the period, so the next run reaches the limit where `n + 1` is a
multiple of it. -/
theorem evtDownSampling : Obligations.EvtDownSampling := by
  intro s k n hk h0 l
  obtain ⟨-, hslot⟩ := slotAt_evtTicks hk h0 n
  have hquiet : slotAt ((evtTicks k n s).setCallback CallbackPort.quiet) k = sampledSlot (slotAt s k) n := hslot
  refine ⟨by rw [hslot, sampledSlot_count_toNat], ?_⟩
  rw [evtTicks, evtHandler_eq, hquiet]
  exact if_congr (callbackDue_sampledSlot _ n) rfl rfl

/-- Settles O53: the ports are 0 up to INT's dispatch, and nothing after it writes them. -/
theorem callbackPorts : Obligations.CallbackPorts := by
  intro s t hrst h u emits
  obtain ⟨s1, h1, ht⟩ := step_after_int hrst h
  have hquiet : u.callback = CallbackPort.quiet := by
    obtain ⟨q, st, ic, cb, rd, he⟩ := hostAccess_frame (nextInput s).host (beginCycle (nextInput s) s)
    rw [show u.callback = _ from timersStep_callback _, he]
    rfl
  have hkeep : t.callback = s1.callback := by
    rcases ht with rfl | ⟨-, i, v, -, hv, rfl⟩
    · rfl
    · have hvkeep : v.callback = (isrCountdown s1).callback := exec_callback hv
      exact hvkeep
  rw [hkeep]
  exact ⟨fun k hk => intDispatch_callback_of_emits h1 hk,
    fun hnone => (intDispatch_callback_of_silent h1 hnone).trans hquiet⟩

/-- Settles O49: an immediate command whose action is R261's, by whether the slot is bound. -/
theorem evtOnTimer : Obligations.EvtOnTimer := by
  intro s slot u d hacc hslot hunit k units f
  have husable : (slotUsable s.cfg slot && u != 3) = true := by rw [slotUsable_eq_true hslot, bne_iff_ne.2 hunit]; rfl
  refine ⟨fun hused => ?_, fun hfree => ?_⟩
  · refine exec_immediate (t := s.setResult evtErrUsed) (if_pos husable) hacc ?_
    rw [evtOnTimerAction_used (s := atPhase s 0) hused]
    rfl
  · have hlimit : BitVec.ofNat 32 ((d.toNat * f.k) % 2 ^ 32) = evtLimit s.cfg u d := (evtLimit_eq_mod s.cfg u d).symm
    rw [hlimit]
    refine exec_immediate (t := (setEvtSource k true (setSlot k (boundSlot s u d) s)).setResult evtOk)
      (if_pos husable) hacc ?_
    rw [evtOnTimerAction_free (s := atPhase s 0) hfree]
    rfl

/-- Settles O50: an immediate command whose action is R265's. -/
theorem evtRelease : Obligations.EvtRelease := fun s slot hacc hslot =>
  exec_immediate (t := evtReleaseAction slot.toNat s) (if_pos (slotUsable_eq_true hslot)) hacc rfl

/-- Settles O51: the handler's run field by field, by whether the callback is due. -/
theorem evtHandler : Obligations.EvtHandler := by
  intro s k e
  refine ⟨fun hdue => ?_, fun hbelow => ?_⟩
  · have hdue : CallbackDue (slotAt s k) := (callbackDue_iff _).2 hdue
    rw [handlerOf, evtHandler_eq, countedSlot, if_pos hdue, if_pos hdue]
    rfl
  · have hnot : ¬ CallbackDue (slotAt s k) := mt (callbackDue_iff _).1 (Nat.not_le.2 hbelow)
    rw [handlerOf, evtHandler_eq, countedSlot, if_neg hnot, if_neg hnot]

end Sys2Proof.Claims
end

section
/-! SUPPORT. Which source INT serves, and what serving it leaves pending (60_exceptions.md R290 to R296). -/

namespace Sys2Proof.Machine

/-! ## The source of the lowest number (R290, R292) -/

/-- The sources stand in the order of their numbers (R290). -/
theorem sources_pairwise_lt (c : Config) : (sources c).Pairwise (sourceNumber · < sourceNumber ·) := by
  have hevt : ((List.range c.nEvt).map IntSource.evt).Pairwise (sourceNumber · < sourceNumber ·) :=
    List.pairwise_map.2 (List.pairwise_lt_range.imp (Nat.add_lt_add_left · 2))
  refine List.pairwise_cons.2 ⟨fun x hx => ?_, List.pairwise_cons.2 ⟨fun x hx => ?_, hevt⟩⟩
  · rcases List.mem_cons.1 hx with rfl | hx
    · exact Nat.one_pos
    · obtain ⟨k, -, rfl⟩ := List.mem_map.1 hx
      exact Nat.lt_of_lt_of_le Nat.two_pos (Nat.le_add_right 2 k)
  · obtain ⟨k, -, rfl⟩ := List.mem_map.1 hx
    exact Nat.lt_of_lt_of_le Nat.one_lt_two (Nat.le_add_right 2 k)

/-- Of the ready sources INT picks the one of the lowest number (R292). -/
theorem readySource_eq_of_least {s : State} {src : IntSource} (hmem : src ∈ sources s.cfg)
    (hready : isReady s src = true)
    (hleast : ∀ x ∈ sources s.cfg, isReady s x = true → sourceNumber src ≤ sourceNumber x) :
    readySource s = some src := by
  obtain ⟨before, after, hsplit⟩ := List.append_of_mem hmem
  have hsorted := sources_pairwise_lt s.cfg
  rw [hsplit, List.pairwise_append] at hsorted
  obtain ⟨-, -, hbefore⟩ := hsorted
  refine List.find?_eq_some_iff_append.2 ⟨hready, before, after, hsplit, fun x hx => ?_⟩
  rw [Bool.not_eq_true', ← Bool.not_eq_true]
  intro hx'
  have hlt := hbefore x hx src (List.mem_cons_self ..)
  have hle := hleast x (hsplit ▸ List.mem_append_left _ hx) hx'
  omega

/-! ## Serving a source (R295) -/

/-- INT's dispatch where a source is ready and no handler is charged for. -/
theorem intDispatch_of_ready {s : State} {src : IntSource} (hfree : s.isrBusy = 0) (hsrc : readySource s = some src) :
    intDispatch s = takeInterrupt (handlerOf src) src s := by
  rw [intDispatch, if_pos hfree, hsrc]

/-- Serving a source whose handler answers `u` charges its cost. -/
theorem takeInterrupt_of_ok {handler : State → Except Fault State} {src : IntSource} {s u : State}
    (hu : handler (clearPending src s) = .ok u) :
    takeInterrupt handler src s = .ok (u.setIsrBusy (isrCycles s.cfg src)) := by
  rw [takeInterrupt, hu]

/-- With no ready source INT does nothing. -/
theorem intDispatch_of_none {s : State} (h : readySource s = none) : intDispatch s = .ok s := by
  unfold intDispatch
  rw [h]
  split <;> rfl

/-- With no handler in service the countdown changes nothing. -/
theorem isrCountdown_of_free {s : State} (h : s.isrBusy = 0) : isrCountdown s = s := by
  rw [isrCountdown, h, Nat.zero_sub, ← h]
  rfl

/-! ## The pending flags (R291, R292) -/

/-- A source that is ready is pending (R291). -/
theorem pending_of_isReady {s : State} {src : IntSource} (h : isReady s src = true) : pending s src = true := by
  cases src <;> exact (Bool.and_eq_true_iff.1 h).2

/-- The pending flag of the served source is cleared. -/
theorem pending_clearPending_same {s : State} {src : IntSource} (h : pending s src = true) :
    pending (clearPending src s) src = false := by
  cases src with
  | tick | rf => rfl
  | evt k =>
    have hk : k < 8 := BitVec.lt_of_getLsbD h
    exact (getLsbD_setBit _ _ _ _ hk).trans (if_pos rfl)

/-- The pending flag of every other source is kept. -/
theorem pending_clearPending_other (s : State) {src x : IntSource} (h : x ≠ src) :
    pending (clearPending src s) x = pending s x := by
  cases src with
  | tick =>
    cases x with
    | tick => exact absurd rfl h
    | rf | evt => rfl
  | rf =>
    cases x with
    | rf => exact absurd rfl h
    | tick | evt => rfl
  | evt k =>
    cases x with
    | tick | rf => rfl
    | evt j => exact getLsbD_setBit_other _ _ fun hjk => h (congrArg _ hjk)

/-- No handler writes a pending flag (R296 to R298). -/
theorem handlerOf_pending {src : IntSource} {s t : State} (h : handlerOf src s = .ok t) (x : IntSource) :
    pending t x = pending s x := by
  obtain ⟨tk, r, m, st, es, cb, rfl⟩ := handlerOf_frame h
  cases x <;> rfl

end Sys2Proof.Machine

namespace Sys2Proof.Claims

open Sys2Proof.Machine

/-- Settles O17: INT picks the ready source of the lowest number, clears its pending flag and no other, and its handler
writes none. -/
theorem priority : Obligations.Priority := by
  intro s t src hfree hmem hready hleast h
  rw [intDispatch_of_ready hfree (readySource_eq_of_least hmem hready hleast)] at h
  obtain ⟨u, hu, rfl⟩ := takeInterrupt_ok h
  refine ⟨⟨u, hu, rfl⟩, ?_, fun x _ hx => ?_⟩
  · exact (handlerOf_pending hu src).trans (pending_clearPending_same (pending_of_isReady hready))
  · exact (handlerOf_pending hu x).trans (pending_clearPending_other s hx)

/-- Settles O18: INT's dispatch by whether it serves a source, and what follows it by whether SEQ is held. -/
theorem intStep : Obligations.IntStep := by
  refine fun s => ⟨?_, fun src u hfree hsrc hu => (intDispatch_of_ready hfree hsrc).trans (takeInterrupt_of_ok hu),
    fun wasBusy hheld => afterInt_still (.inr hheld), fun i hfree hi => ?_⟩
  · rintro (hbusy | hnone)
    · exact intDispatch_busy hbusy
    · exact intDispatch_of_none hnone
  · rw [afterInt_runs hfree hi, isrCountdown_of_free hfree]

/-- Settles O19: the addition of a word is modulo 2^32. -/
theorem tickHandler : Obligations.TickHandler := by
  intro s
  have hadd : s.tick + 1 = BitVec.ofNat 32 ((s.tick.toNat + 1) % 2 ^ 32) :=
    BitVec.eq_of_toNat_eq (by rw [BitVec.toNat_add, BitVec.toNat_ofNat, Nat.mod_mod]; rfl)
  rw [handlerOf, Machine.tickHandler, hadd]
  rfl

end Sys2Proof.Claims
end

section
/-! SUPPORT. Where a cycle of the block can stop (60_exceptions.md R280, 93_implementation_defined.md U6): the receiver
stores inside BUF only, and of the commands only the two that read BUF can fault. -/

namespace Sys2Proof.Machine

/-! ## The RF handler does not fault (43_rf433.md R226) -/

/-- The bytes the receiver stores fit BUF. -/
abbrev CapacityFits (s : State) : Prop := s.rf.capBytes.toNat ≤ s.cfg.rfBufCap

/-- `EmitByte` stores below `rf.capBytes` only, which is inside BUF. -/
theorem emitByte_ne_error {s : State} (hcap : CapacityFits s) (f : Fault) : emitByte s ≠ .error f := by
  intro h
  simp only [emitByte] at h
  split at h
  · rename_i g hstore
    split at hstore
    · rename_i hlt
      rw [bufStore, if_pos (Nat.lt_of_lt_of_le hlt hcap)] at hstore
      cases hstore
    · cases hstore
  · cases h

/-- A bit added does not fault. -/
theorem addManBit_ne_error {s : State} (hcap : CapacityFits s) (b : Bool) (f : Fault) : addManBit b s ≠ .error f := by
  intro h
  unfold addManBit at h
  generalize hs1 : s.setRf _ = s1 at h
  have hcap1 : CapacityFits s1 := hs1 ▸ hcap
  clear hs1
  dsimp only at h
  split at h
  · split at h
    · rename_i g hemit
      exact emitByte_ne_error hcap1 g hemit
    · cases h
  · cases h

/-- A bit added keeps the capacity. -/
theorem addManBit_capacityFits {s t : State} {b : Bool} (h : addManBit b s = .ok t) (hcap : CapacityFits s) :
    CapacityFits t := by
  rcases addManBit_cases h with ⟨-, w, rfl⟩ | ⟨-, w, m, st, target, -, rfl⟩ <;> exact hcap

/-- The end test and the add of DATA do not fault. -/
theorem rfDataEdge_ne_error {s : State} (hcap : CapacityFits s) (f : Fault) : rfDataEdge s ≠ .error f := by
  intro h
  simp only [rfDataEdge] at h
  split at h
  · cases h
  · split at h
    · rename_i g hadd
      exact addManBit_ne_error hcap _ g hadd
    · cases h

/-- Mode DATA does not fault. -/
theorem rfData_ne_error {s : State} (hcap : CapacityFits s) (tr : Bool) (f : Fault) : rfData tr s ≠ .error f := by
  intro h
  simp only [rfData] at h
  split at h
  · split at h
    · cases h
    · exact rfDataEdge_ne_error hcap f h
    · split at h
      · rename_i g hadd
        exact addManBit_ne_error hcap _ g hadd
      · rename_i u hadd
        exact rfDataEdge_ne_error (addManBit_capacityFits hadd hcap) f h
  · cases h

/-- An RF tick does not fault: outside IDLE the capacity is inside BUF (10_state.md R36). -/
theorem rfHandler_ne_error {s : State} (hs : RfInv s) (f : Fault) : rfHandler s ≠ .error f := by
  intro h
  simp only [rfHandler] at h
  split at h
  · cases h
  · rename_i hrun
    obtain ⟨-, -, hcap, -, -, -⟩ := hs
    obtain ⟨-, -, hcap⟩ := hcap fun hidle => hrun (.inr hidle)
    split at h
    · rename_i g hmode
      cases hm : (rfSample s).rf.mode <;> rw [hm] at hmode
      case data => exact rfData_ne_error (s := rfSample s) hcap _ g hmode
      all_goals cases hmode
    · cases h

/-! ## Up to SEQ's step no cycle stops -/

/-- No handler faults (60_exceptions.md R296 to R298). -/
theorem handlerOf_ne_error {s : State} (hs : RfInv s) (src : IntSource) (f : Fault) : handlerOf src s ≠ .error f := by
  cases src with
  | tick | evt => exact fun h => nomatch h
  | rf => exact rfHandler_ne_error hs f

/-- Serving a source faults only where its handler does. -/
theorem takeInterrupt_error {handler : State → Except Fault State} {src : IntSource} {s : State} {f : Fault}
    (h : takeInterrupt handler src s = .error f) : handler (clearPending src s) = .error f := by
  unfold takeInterrupt at h
  split at h
  · cases h
    assumption
  · cases h

/-- INT's dispatch does not fault. -/
theorem intDispatch_ne_error {s : State} (hs : RfInv s) (f : Fault) : intDispatch s ≠ .error f := by
  intro h
  by_cases hfree : s.isrBusy = 0
  · cases hsrc : readySource s with
    | none =>
      rw [intDispatch_of_none hsrc] at h
      cases h
    | some src =>
      rw [intDispatch_of_ready hfree hsrc] at h
      have hclear : RfInv (clearPending src s) := by
        rw [clearPending_frame]
        exact hs
      exact handlerOf_ne_error hclear src f (takeInterrupt_error h)
  · rw [intDispatch_busy hfree] at h
    cases h

/-- A cycle runs up to SEQ's step. -/
theorem beforeSeq_isOk {s : State} (hs : Inv s) : ∃ s1, beforeSeq s = .ok s1 := by
  have hbegin : Inv (beginCycle (nextInput s) s) := hs
  obtain ⟨-, -, hrf, -, -, -⟩ := inv_timersStep (inv_hostAccess (nextInput s).host hbegin)
  cases h : beforeSeq s with
  | ok s1 => exact ⟨s1, rfl⟩
  | error f => exact absurd h (intDispatch_ne_error hrf f)

/-- A byte that is unwritten after a store was unwritten before it. -/
theorem cellAt_eq_none_of_cellStore {m : List Host.Cell} {x y : Nat} {v : Byte}
    (h : cellAt (cellStore m x v) y = none) : cellAt m y = none := by
  by_cases hy : y = x
  · subst hy
    rw [cellAt_cellStore_same] at h
    cases h
  · rwa [cellAt_cellStore_other _ _ hy] at h

/-- A byte that is unwritten where SEQ steps was unwritten at the start of the cycle. -/
theorem bufByte_eq_none_of_beforeSeq {s s1 : State} {a : Nat} (h : beforeSeq s = .ok s1) (ha : bufByte s1 a = none) :
    bufByte s a = none := by
  obtain ⟨-, hbuf, -⟩ := beforeInt_frame s
  rw [bufByte, ← hbuf]
  rw [bufByte] at ha
  rcases intDispatch_buf h with hkeep | ⟨-, -, -, v, hstore⟩
  · rwa [hkeep] at ha
  · exact cellAt_eq_none_of_cellStore (hstore ▸ ha)

/-! ## The commands that can fault (43_rf433.md R216, R218) -/

/-- No phase of the program faults. -/
def NeverFaults (P : MicroProgram) : Prop := ∀ k u f, P.action k u ≠ .error f

/-- An immediate command whose action answers a state. -/
theorem neverFaults_immediate (act : State → State) : NeverFaults (immediate fun s => .ok (act s)) :=
  fun _ _ _ h => nomatch h

/-- A refused command. -/
theorem neverFaults_refused (r : Word) : NeverFaults (refusedProgram r) := neverFaults_immediate _

/-- A command that is refused on some operands. -/
theorem NeverFaults.ite {P Q : MicroProgram} (hP : NeverFaults P) (hQ : NeverFaults Q) (p : Prop) [Decidable p] :
    NeverFaults (if p then P else Q) := by
  split
  · exact hP
  · exact hQ

/-- The one-wire commands. -/
theorem neverFaults_of_owPin {c : Config} {i : Instr} {pin : Byte} (h : owPin i = some pin) :
    NeverFaults (programOf c i) := by
  cases i <;> cases h <;> refine .ite ?_ (neverFaults_refused _) _ <;> intro k u f hact
  case owReset => simp only [owResetProgram] at hact; split_ifs at hact
  case owReadBit => simp only [owReadBitProgram] at hact; split_ifs at hact
  case owWriteBit => simp only [owWriteBitProgram] at hact; split_ifs at hact
  case owReadByte => simp only [owReadByteProgram] at hact; split_ifs at hact
  case owWriteByte => simp only [owWriteByteProgram] at hact; split_ifs at hact

/-- The command reads the byte `a` of BUF. -/
abbrev ReadsByte (i : Instr) (a : Nat) : Prop := (i = .rfGetMsg ∧ a < 2) ∨ ∃ x : Byte, i = .rfRdBuf x ∧ a = x.toNat

/-- A load inside BUF fails on an unwritten byte only. -/
theorem bufLoad_error {s : State} {a : Nat} {f : Fault} (hcap : a < s.cfg.rfBufCap) (h : bufLoad s a = .error f) :
    f = .bufUnwritten a ∧ bufByte s a = none := by
  cases hbyte : bufByte s a with
  | none =>
    rw [bufLoad_of_unwritten hcap hbyte] at h
    exact ⟨(Except.error.inj h).symm, rfl⟩
  | some b =>
    rw [bufLoad_of_stored hcap hbyte] at h
    cases h

/-- `RF_GETMSG` faults where one of its two loads does. -/
theorem rfGetMsgAction_error {u : State} {f : Fault} (h : rfGetMsgAction u = .error f) :
    ∃ a, a < 2 ∧ bufLoad u a = .error f := by
  unfold rfGetMsgAction at h
  split at h
  · cases h
    exact ⟨0, Nat.two_pos, ‹_›⟩
  · split at h
    · cases h
      exact ⟨1, Nat.one_lt_two, ‹_›⟩
    · cases h

/-- `RF_RDBUF` faults where its load does. -/
theorem rfRdBufAction_error {n : Nat} {u : State} {f : Fault} (h : rfRdBufAction n u = .error f) :
    bufLoad u n = .error f := by
  unfold rfRdBufAction at h
  split at h
  · cases h
    assumption
  · cases h

/-- A phase of a command faults only where the command loads a byte inside BUF, and that load fails. -/
theorem programOf_action_error {c : Config} {i : Instr} {k : Nat} {u : State} {f : Fault} (hc : 2 ≤ c.rfBufCap)
    (h : (programOf c i).action k u = .error f) : ∃ a, a < c.rfBufCap ∧ ReadsByte i a ∧ bufLoad u a = .error f := by
  have quiet (hP : NeverFaults (programOf c i)) : ∃ a, a < c.rfBufCap ∧ ReadsByte i a ∧ bufLoad u a = .error f :=
    absurd h (hP k u f)
  cases i with
  | owReset | owReadBit | owWriteBit | owReadByte | owWriteByte => exact quiet (neverFaults_of_owPin rfl)
  | delayUs | delayMs => cases h
  | nop | millisInit | millis | micros | manEncode | manDecode | manNibbler | rfBegin | rfComplete | rfStop =>
    exact quiet (neverFaults_immediate _)
  | rfInit | rfBeginBytes | evtOnTimer | evtRelease =>
    exact quiet (.ite (neverFaults_immediate _) (neverFaults_refused _) _)
  | rfGetMsg =>
    obtain ⟨a, ha, hload⟩ := rfGetMsgAction_error h
    exact ⟨a, Nat.lt_of_lt_of_le ha hc, .inl ⟨rfl, ha⟩, hload⟩
  | rfRdBuf x =>
    simp only [programOf] at h
    split at h
    · exact ⟨x.toNat, ‹_›, .inr ⟨x, rfl, rfl⟩, rfRdBufAction_error h⟩
    · cases h

/-- The entry of phases faults only where the action of one of them does, in a state with the properties that the
effects of the command keep. -/
theorem enterPhases_error {c : Config} {i : Instr} {f : Fault} (Q : State → Prop)
    (heff : ∀ u v, CommandEffect c i u v → Q u → Q v) (r : Nat) :
    ∀ s, enterPhases (programOf c i) r s = .error f → Q s → ∃ k u, Q u ∧ (programOf c i).action k u = .error f := by
  induction r with
  | zero => exact fun s h _ => nomatch h
  | succ r ih =>
    intro s h hs
    simp only [enterPhases] at h
    split at h
    · cases h
      exact ⟨_, s, hs, ‹_›⟩
    · rename_i u hact
      have hu := heff _ _ (programOf_action_effect hact) hs
      split at h
      · exact ih _ h (heff _ _ (.setSeq rfl) hu)
      · cases h

/-- A command's cycle faults only where the action of one of its phases does, in a state with the properties that the
effects of the command keep. -/
theorem exec_fault_of_effects {i : Instr} {s : State} {f : Fault} (Q : State → Prop)
    (heff : ∀ u v, CommandEffect s.cfg i u v → Q u → Q v) (h : exec i s = .fault f) (hs : Q s) :
    ∃ k u, Q u ∧ (programOf s.cfg i).action k u = .error f := by
  rw [exec_eq_runProgram, runProgram_fault] at h
  unfold seqStep at h
  split at h
  · split at h
    · exact enterPhases_error Q heff _ _ h (heff _ _ (.setSeq rfl) hs)
    · split at h
      · exact enterPhases_error Q heff _ _ h (heff _ _ (.setSeq rfl) hs)
      · cases h
  · cases h

/-- A command's cycle faults only where the command reads a byte of BUF that nothing has stored
(93_implementation_defined.md U6). -/
theorem exec_fault {i : Instr} {s : State} {f : Fault} (hc : 2 ≤ s.cfg.rfBufCap) (h : exec i s = .fault f) :
    ∃ a, f = .bufUnwritten a ∧ bufByte s a = none ∧ ReadsByte i a := by
  obtain ⟨k, u, ⟨hcfg, hbuf⟩, hact⟩ := exec_fault_of_effects (fun u => u.cfg = s.cfg ∧ u.buf = s.buf)
    (fun u v he ⟨hcfg, hbuf⟩ => ⟨he.cfg_eq.trans hcfg, (congrArg Prod.fst he.buf_gie).trans hbuf⟩) h ⟨rfl, rfl⟩
  obtain ⟨a, ha, hreads, hload⟩ := programOf_action_error hc hact
  obtain ⟨rfl, hnone⟩ := bufLoad_error (hcfg ▸ ha) hload
  exact ⟨a, rfl, (congrArg (cellAt · a) hbuf).symm.trans hnone, hreads⟩

/-! ## The clock cycle (70_reset_and_hazards.md R330) -/

/-- The word of a command in progress decodes (30_encoding.md R103). -/
theorem decode_of_legalWord {w : Word} (h : legalWord w = true) : ∃ i, decode w = .ok i := by
  unfold legalWord at h
  split at h
  · exact ⟨_, ‹_›⟩
  · cases h

/-- A cycle answers a next state, or what the command in progress does. -/
theorem step_next_or_exec {s : State} (hs : Inv s) : (∃ t, step s = .next t) ∨
    (s.seq.busy = true ∧ ∃ s1 i, beforeSeq s = .ok s1 ∧ decode s.seq.cmd = .ok i ∧
      step s = mapNext endCycle (exec i (isrCountdown s1))) := by
  cases hrst : (nextInput s).rst with
  | true => exact .inl ⟨_, step_reset hrst⟩
  | false =>
    obtain ⟨s1, h1⟩ := beforeSeq_isOk hs
    rw [step_of_ok hrst h1]
    by_cases hstill : s.seq.busy = false ∨ 0 < s1.isrBusy
    · exact .inl ⟨_, afterInt_still hstill⟩
    · obtain ⟨hbusy, hfree⟩ := not_or.1 hstill
      have hbusy : s.seq.busy = true := Bool.not_eq_false _ ▸ hbusy
      obtain ⟨-, -, -, -, hlegal, -⟩ := hs
      obtain ⟨i, hi⟩ := decode_of_legalWord (hlegal hbusy)
      refine .inr ⟨hbusy, s1, i, h1, hi, ?_⟩
      rw [hbusy, afterInt_runs (Nat.eq_zero_of_not_pos hfree) (by rwa [beforeSeq_seq_of_busy h1 hbusy])]

/-- The end of the cycle refuses nothing. -/
theorem mapNext_eq_refused {g : State → State} {o : Out} {r : Refusal} (h : mapNext g o = .refused r) :
    o = .refused r := by
  cases o with
  | next | fault => cases h
  | refused => exact h

/-- The end of the cycle raises no fault. -/
theorem mapNext_eq_fault {g : State → State} {o : Out} {f : Fault} (h : mapNext g o = .fault f) : o = .fault f := by
  cases o with
  | next | refused => cases h
  | fault => exact h

end Sys2Proof.Machine

namespace Sys2Proof.Claims

open Sys2Proof.Machine

/-- Settles O60: only the command in progress can stop a cycle, and only by a load of a byte that is unwritten; what is
unwritten there was so at the start of the cycle. -/
theorem stopsOnlyOnUnwrittenByte : Obligations.StopsOnlyOnUnwrittenByte := by
  intro s hs
  rcases step_next_or_exec hs with ⟨t, ht⟩ | ⟨hbusy, s1, i, h1, hi, hstep⟩
  · rw [ht]
    exact ⟨fun _ h => (nomatch h), fun _ h => (nomatch h)⟩
  · refine ⟨fun r h => ?_, fun f h => ⟨hbusy, ?_⟩⟩
    · exact exec_not_refused i _ r (mapNext_eq_refused (hstep.symm.trans h))
    · obtain ⟨hvalid, -⟩ := inv_beforeSeq h1 hs
      have hcap : 2 ≤ s1.cfg.rfBufCap := by
        obtain ⟨-, -, -, -, ⟨-, -, hcap, -⟩, -⟩ := hvalid
        exact hcap
      obtain ⟨a, hf, hnone, hreads⟩ :=
        exec_fault (s := isrCountdown s1) hcap (mapNext_eq_fault (hstep.symm.trans h))
      refine ⟨a, hf, bufByte_eq_none_of_beforeSeq h1 hnone, ?_⟩
      rcases hreads with ⟨rfl, ha⟩ | ⟨x, rfl, ha⟩
      · exact .inl ⟨hi, ha⟩
      · exact .inr ⟨x, hi, ha⟩

end Sys2Proof.Claims
end
